-- ==== Sys2Proof/Word.lean ====
section
/-! DEFINITION. The words of the block and the names of its address spaces (spec/00_scope.md R7, spec/20_memory.md R55). -/

namespace Sys2Proof

/-- A byte: one channel of a pixel, one cell of a pixel memory (R7). -/
abbrev Byte := BitVec 8

/-- A 32-bit value: a host register, a pixel, the data of a transaction (R21, R81). -/
abbrev Word := BitVec 32

/-- The two pixel memories (R31, R32). -/
inductive PixelMem where
  | src
  | dst
  deriving DecidableEq, Repr

/-- The three address spaces of R55. -/
inductive Space where
  | reg
  | pixels (m : PixelMem)
  deriving DecidableEq, Repr

/-- The direction of a transaction (R90). -/
inductive Dir where
  | read
  | write
  deriving DecidableEq, Repr

end Sys2Proof
end

