-- ==== Sys2Proof/Config.lean ====
section
/-! DEFINITION. What is fixed when the block is built, and the free values (spec/00_scope.md R5, spec/93_implementation_defined.md). -/

namespace Sys2Proof

/-- The two readings of the narrowing of a root above 255 (R158, U1). -/
inductive NarrowMode where
  | wrap
  | saturate
  deriving DecidableEq, Repr

/-- `NARROW_MODE`: this hardware takes WRAP (R5, R157, R158). -/
def Config.narrowMode : NarrowMode := .wrap

/-- DESIGN CHOICE (log 4), safe as no statement rests on it: MEM_BYTES / 4 in `State.reset`.
R5 leaves MEM_BYTES OPEN; 16 pixels is the capacity of the programs of spec/95_test_vectors.md. -/
def Config.resetPixels : Nat := 16

/-- The free values (log 7, log 8): the bits the block leaves behind where the spec gives no value.
No body: nothing can be proved of a value. The argument counts the free values drawn so far. -/
opaque Config.freeBits (w : Nat) (draw : Nat) : BitVec w

end Sys2Proof
end

