-- ==== Sys2Proof/Syntax.lean ====
section
/-! DEFINITION. The operations of the block, one constructor for each row of spec/opcode_table.json (spec/30_encoding.md R90). -/

namespace Sys2Proof

/-- The operation map of R90: ten datapath operations, twelve host transactions and the reset input.
Operands are what the row's own rule names; everything else an operation reads is state. -/
inductive Instr where
  | apply
  | zfill
  | window
  /-- LUMA of one of the eight neighbours, in the numbering of R28. -/
  | luma (i : Fin 8)
  | gx
  | gy
  | sqsum
  | root
  | narrow
  | pack
  | wrCtrl (v : Word)
  | rdCtrl
  | rdStatus
  | wrStatus (v : Word)
  | wrWidth (v : Word)
  | rdWidth
  | wrHeight (v : Word)
  | rdHeight
  | wrb (m : PixelMem) (a : Nat) (v : Byte)
  | rdb (m : PixelMem) (a : Nat)
  | wrp (m : PixelMem) (a : Nat) (v : Word)
  | rdp (m : PixelMem) (a : Nat)
  | reset
  deriving DecidableEq, Repr

end Sys2Proof
end

