-- ==== Sys2Proof/WellFormed.lean ====
section
/-! DEFINITION. Which operations are transactions of this block, as far as the operation alone tells (spec/20_memory.md R54). -/

namespace Sys2Proof

/-- R54: a 32-bit access to a pixel memory is at a multiple of 4.
The upper bound MEM_BYTES is a parameter of the machine and is checked where the access is made. -/
def Instr.wellFormed : Instr → Bool
  | .apply => true
  | .zfill => true
  | .window => true
  | .luma _ => true
  | .gx => true
  | .gy => true
  | .sqsum => true
  | .root => true
  | .narrow => true
  | .pack => true
  | .wrCtrl _ => true
  | .rdCtrl => true
  | .rdStatus => true
  | .wrStatus _ => true
  | .wrWidth _ => true
  | .rdWidth => true
  | .wrHeight _ => true
  | .rdHeight => true
  | .wrb _ _ _ => true
  | .rdb _ _ => true
  | .wrp _ a _ => a % 4 == 0
  | .rdp _ a => a % 4 == 0
  | .reset => true

end Sys2Proof
end

