-- ==== Sys2Proof/Decode.lean ====
section
/-! DEFINITION. What selects an operation, and the decoder and encoder over it (spec/30_encoding.md R90, R94, spec/44_host_commands.md R181). -/

namespace Sys2Proof

/-- A host transaction: the tuple (space, direction, width in bytes, address, data) of R94.
The data of a read is not looked at. -/
structure Txn where
  space : Space
  dir : Dir
  width : Nat
  addr : Nat
  data : Word
  deriving DecidableEq, Repr

/-- What the host can send the block: a transaction, or the reset input (R210: not a transaction). -/
inductive HostInput where
  | bus (t : Txn)
  | reset
  deriving DecidableEq, Repr

/-- What selects an operation (R90, "what a decoder needs"): something the host sent, or, for the datapath
operations that no bit pattern selects, their order number and, for LUMA, which of its eight performances. -/
inductive Selector where
  | host (h : HostInput)
  | datapath (order lane : Nat)
  deriving DecidableEq, Repr

/-- Why a selector names nothing: R181 for the register space, R54 for the pixel memories, R90 for the order numbers. -/
inductive Reject where
  /-- A register access of a width other than 4 bytes (R181). -/
  | regWidth
  /-- A register access at an offset that is not a multiple of 4 (R181). -/
  | regOffset
  /-- A pixel memory access of a width other than 1 and 4 bytes (R54). -/
  | memWidth
  /-- A 32-bit pixel memory access at an address that is not a multiple of 4 (R54). -/
  | memAlign
  /-- An order number that R90's table does not list. -/
  | noSuchOrder
  deriving DecidableEq, Repr

/-- What a selector is: an operation of the table, one of R181's accesses to an offset with no register, or nothing. -/
inductive Decoded where
  | instr (i : Instr)
  | unmappedRead
  | unmappedWrite
  | rejected (r : Reject)
  deriving DecidableEq, Repr

/-- A transaction of the register space (R90, R181). -/
def decodeReg (t : Txn) : Decoded :=
  if t.width ≠ 4 then .rejected .regWidth
  else if t.addr % 4 ≠ 0 then .rejected .regOffset
  else
    match t.dir, t.addr with
    | .write, 0x0 => .instr (.wrCtrl t.data)
    | .read, 0x0 => .instr .rdCtrl
    | .read, 0x4 => .instr .rdStatus
    | .write, 0x4 => .instr (.wrStatus t.data)
    | .write, 0x8 => .instr (.wrWidth t.data)
    | .read, 0x8 => .instr .rdWidth
    | .write, 0xC => .instr (.wrHeight t.data)
    | .read, 0xC => .instr .rdHeight
    | .read, _ => .unmappedRead
    | .write, _ => .unmappedWrite

/-- A transaction of a pixel memory (R54, R90, R178, R179). -/
def decodeMem (m : PixelMem) (t : Txn) : Decoded :=
  if t.width = 1 then
    match t.dir with
    | .write => .instr (.wrb m t.addr (t.data.setWidth 8))
    | .read => .instr (.rdb m t.addr)
  else if t.width = 4 then
    if t.addr % 4 ≠ 0 then .rejected .memAlign
    else
      match t.dir with
      | .write => .instr (.wrp m t.addr t.data)
      | .read => .instr (.rdp m t.addr)
  else .rejected .memWidth

/-- The datapath operations by R90's order numbers.
Order 3, LUMA, is performed eight times, once for each neighbour; the others have the one performance 0. -/
def decodeDatapath (order lane : Nat) : Decoded :=
  if order = 3 then
    if h : lane < 8 then .instr (.luma ⟨lane, h⟩) else .rejected .noSuchOrder
  else if lane ≠ 0 then .rejected .noSuchOrder
  else
    match order with
    | 0 => .instr .apply
    | 1 => .instr .zfill
    | 2 => .instr .window
    | 4 => .instr .gx
    | 5 => .instr .gy
    | 6 => .instr .sqsum
    | 7 => .instr .root
    | 8 => .instr .narrow
    | 9 => .instr .pack
    | _ => .rejected .noSuchOrder

/-- The decoder, total on every selector. -/
def decode : Selector → Decoded
  | .host (.bus t) =>
    match t.space with
    | .reg => decodeReg t
    | .pixels m => decodeMem m t
  | .host .reset => .instr .reset
  | .datapath order lane => decodeDatapath order lane

/-- A 32-bit register transaction, in R90's columns. -/
def regTxn (d : Dir) (off : Nat) (v : Word) : Selector := .host (.bus ⟨.reg, d, 4, off, v⟩)

/-- A pixel memory transaction, in R90's columns. -/
def memTxn (m : PixelMem) (d : Dir) (width a : Nat) (v : Word) : Selector :=
  .host (.bus ⟨.pixels m, d, width, a, v⟩)

/-- What selects an operation, row by row of R90's two tables. A read's data is written as 0. -/
def encode : Instr → Selector
  | .apply => .datapath 0 0
  | .zfill => .datapath 1 0
  | .window => .datapath 2 0
  | .luma i => .datapath 3 i.val
  | .gx => .datapath 4 0
  | .gy => .datapath 5 0
  | .sqsum => .datapath 6 0
  | .root => .datapath 7 0
  | .narrow => .datapath 8 0
  | .pack => .datapath 9 0
  | .wrCtrl v => regTxn .write 0x0 v
  | .rdCtrl => regTxn .read 0x0 0
  | .rdStatus => regTxn .read 0x4 0
  | .wrStatus v => regTxn .write 0x4 v
  | .wrWidth v => regTxn .write 0x8 v
  | .rdWidth => regTxn .read 0x8 0
  | .wrHeight v => regTxn .write 0xC v
  | .rdHeight => regTxn .read 0xC 0
  | .wrb m a v => memTxn m .write 1 a (v.setWidth 32)
  | .rdb m a => memTxn m .read 1 a 0
  | .wrp m a v => memTxn m .write 4 a v
  | .rdp m a => memTxn m .read 4 a 0
  | .reset => .host .reset

/-- DESIGN CHOICE (log 1): how a transaction is written as one number, since R94 gives the tuple and no bits.
Bits 3:0 are the address's low four bits, the bits opcode_table.json's mask 0xF covers (R90); bits 5:4 the space
(0 REG, 1 SRC, 2 DST, 3 the reset input); bit 6 the direction (1 write); bits 15:7 the width minus 4, modulo 512;
bits 47:16 the data; bits 48 and up the rest of the address. -/
def HostInput.ofNat (w : Nat) : HostInput :=
  let txn (sp : Space) : HostInput :=
    .bus { space := sp
           dir := if w / 64 % 2 = 1 then .write else .read
           width := (w / 128 + 4) % 512
           addr := w / 2 ^ 48 * 16 + w % 16
           data := BitVec.ofNat 32 (w / 65536) }
  match w / 16 % 4 with
  | 0 => txn .reg
  | 1 => txn (.pixels .src)
  | 2 => txn (.pixels .dst)
  | _ => .reset

/-- The number of the space field of `HostInput.ofNat`. -/
def spaceCode : Space → Nat
  | .reg => 0
  | .pixels .src => 1
  | .pixels .dst => 2

/-- The number `HostInput.ofNat` reads as this input; a transaction's width must be below 512. -/
def HostInput.toNat : HostInput → Nat
  | .bus t =>
    t.addr % 16 + 16 * spaceCode t.space + 64 * (if t.dir = .write then 1 else 0)
      + 128 * ((t.width + 508) % 512) + 65536 * t.data.toNat + 2 ^ 48 * (t.addr / 16)
  | .reset => 48

/-- The instruction the decoder reads from a word of opcode_table.json's numbering: bits at and above `nbits` are 0.
The table gives bits to the register rows only, and gives a read and a write of one register the same bits; the
direction bit of log 1 being 0, such a word is the read. -/
def decodeTableWord (nbits w : Nat) : Option Instr :=
  match decode (.host (HostInput.ofNat (w % 2 ^ nbits))) with
  | .instr i => some i
  | .unmappedRead => none
  | .unmappedWrite => none
  | .rejected _ => none

end Sys2Proof
end

