-- ==== Sys2Proof/Machine/State.lean ====
section
/-! DEFINITION. The state of the block as plain data, its value after reset, and the reasons a step can stop (spec/10_state.md). -/

namespace Sys2Proof.Machine

/-- A pixel memory: (address, byte) pairs at strictly rising addresses. An address that is not listed holds a byte
that nothing has written since power-up, which has no value (R36, U5; log 5). -/
abbrev Memory := List Host.Cell

/-- The neighbour registers n[0] to n[7] of R28: NW, N, NE, W, E, SW, S, SE, each 8 bits, two's complement. -/
structure Window where
  n0 : Byte
  n1 : Byte
  n2 : Byte
  n3 : Byte
  n4 : Byte
  n5 : Byte
  n6 : Byte
  n7 : Byte
  deriving DecidableEq, Repr

/-- DESIGN CHOICE (log 16): which operation of the fixed order of R90 and R104 the engine performs next in a run;
`complete` is the completion step of R180. Outside a run it is `zfill`. -/
inductive Phase where
  | zfill
  | window
  | gx
  | gy
  | sqsum
  | root
  | narrow
  | pack
  | complete
  deriving DecidableEq, Repr

/-- DESIGN CHOICE (log 2): one move of the host or of the engine, so that plain data says who moves next. -/
inductive Move where
  /-- The host issues a transaction or asserts reset (R170, R210). -/
  | host (h : HostInput)
  /-- The host's WAIT of R94: read STATUS until DONE (log 21). -/
  | wait
  /-- The engine performs its next operation. -/
  | engineOp
  /-- The engine performs the whole of APPLY as one step, when its run is about to begin (D24, R106). -/
  | engineRun
  deriving DecidableEq, Repr

/-- The complete state of the block (R20), its one open parameter, and the model's own fields. -/
structure State where
  /-- MEM_BYTES / 4 (R5, D5; log 4). No step changes it. -/
  memPixels : Nat
  /-- WIDTH (R21). -/
  width : Word
  /-- HEIGHT (R22). -/
  height : Word
  /-- STATUS.BUSY (R24). -/
  busy : Bool
  /-- STATUS.DONE (R24). -/
  done : Bool
  /-- STATUS.ERR (R24). -/
  err : Bool
  /-- SRC (R31). -/
  src : Memory
  /-- DST (R32). -/
  dst : Memory
  /-- The scan position's column X (R27). -/
  x : Word
  /-- The scan position's row Y (R27). -/
  y : Word
  /-- n[0..7] (R28). -/
  n : Window
  /-- ALPHA (R29). -/
  alpha : Byte
  /-- GX, signed (R30). -/
  gx : BitVec 11
  /-- GY, signed (R30). -/
  gy : BitVec 11
  /-- SS (R30). -/
  ss : BitVec 21
  /-- ROOT (R30). -/
  root : BitVec 11
  /-- MAG (R30). -/
  mag : Byte
  /-- Model's own (log 16): the engine's place in the order of operations. -/
  phase : Phase
  /-- Model's own (log 14): the value the last host read returned. -/
  readData : Word
  /-- Model's own (log 2): the moves still to come; when there is none, the engine goes on by itself. -/
  script : List Move
  /-- Model's own (log 24): how many free values have been drawn. -/
  draws : Nat
  deriving DecidableEq, Repr

/-- Why the machine stops with a fault. Each is safe: where the block would go on with an unknown value, or in a state
no run reaches, the model proves nothing. -/
inductive Fault where
  /-- Raised by a host read (RDB, RDP) and by the engine's sampling (LUMA, WINDOW, APPLY): the byte has not been written
  since power-up and has no value (R36, R179, R214, U5, U12). Safe. -/
  | unwrittenByte (m : PixelMem) (a : Nat)
  /-- Raised by LUMA, WINDOW, PACK and APPLY: a pixel outside the image (R53, U8); no run does it. Safe. -/
  | outsideImage (x y : Int)
  /-- Raised by ZFILL, LUMA, WINDOW, PACK and APPLY: an image that does not fit the memory (R33, R53); the range check
  keeps every run from it. Safe. -/
  | outsideMemory (m : PixelMem) (a : Nat)
  deriving DecidableEq, Repr

/-- Why the model gives a step no meaning. Each is safe: the spec says the model refuses it. -/
inductive Refusal where
  /-- Raised by `exec` for an instruction without a meaning; no arm does. Safe. -/
  | notModelled (mnemonic : String)
  /-- Raised by a step whose host input names nothing, and by WRP and RDP at a misaligned address (R54, R181, R193). Safe. -/
  | notATransaction (why : Reject)
  /-- Raised by WRB, RDB, WRP and RDP at or above MEM_BYTES (R54, R193). Safe. -/
  | addressOutOfRange (m : PixelMem) (a : Nat)
  /-- Raised by WRB, RDB, WRP and RDP while BUSY = 1 (R62, R193, U6). Safe. -/
  | memoryAccessDuringRun
  deriving DecidableEq, Repr

/-- The outcome of one step. -/
abbrev Result := Host.Outcome State Fault Refusal

/-- The block after a power-up reset (R36, R210), for any capacity of `4 * pixels` bytes: registers 0, idle, nothing
written to either memory. The working state, which R36 leaves undefined, is 0 (DESIGN CHOICE, unsafe: log 6). -/
def State.powerUp (pixels : Nat) : State where
  memPixels := pixels
  width := 0
  height := 0
  busy := false
  done := false
  err := false
  src := []
  dst := []
  x := 0
  y := 0
  n := ⟨0, 0, 0, 0, 0, 0, 0, 0⟩
  alpha := 0
  gx := 0
  gy := 0
  ss := 0
  root := 0
  mag := 0
  phase := .zfill
  readData := 0
  script := []
  draws := 0

/-- The machine right after reset (R36), at the capacity of log 4. -/
def State.reset : State := State.powerUp Config.resetPixels

end Sys2Proof.Machine
end

