-- ==== Sys2Proof/Machine/Flags.lean ====
section
/-! DEFINITION. The status bits BUSY, DONE and ERR: the block has no other flag (spec/10_state.md R24, R26, spec/30_encoding.md R87). -/

namespace Sys2Proof.Machine

/-- R176: STATUS as a read returns it, 29 zero bits, ERR, DONE, BUSY. -/
def State.statusWord (s : State) : Word :=
  (0 : BitVec 29) ++ BitVec.ofBool s.err ++ BitVec.ofBool s.done ++ BitVec.ofBool s.busy

/-- R174: what every accepted START does first, DONE <- 0 and ERR <- 0. -/
def State.clearResult (s : State) : State := { s with done := false, err := false }

/-- R174: BUSY <- 1 and the engine begins APPLY. -/
def State.beginRun (s : State) : State := { s with busy := true, phase := .zfill }

/-- R180: BUSY <- 0 and DONE <- 1, together. -/
def State.endRun (s : State) : State := { s with busy := false, done := true, phase := .zfill }

end Sys2Proof.Machine
end

