-- ==== Sys2Proof/Machine/Operands.lean ====
section
/-! DEFINITION. The arithmetic of the datapath and the layout of a pixel: pure functions, over the integers unless a rule
names a width (spec/00_scope.md R6, R7, spec/20_memory.md R50 to R52, spec/30_encoding.md R81 to R85). -/

namespace Sys2Proof.Machine

/-- R50: the byte address of the pixel at column `x`, row `y` of an image `w` pixels wide. -/
def pixelAddr (w x y : Nat) : Nat := (y * w + x) * 4

/-- R103: an interior pixel, in the integers and without subtraction (C2). -/
abbrev Interior (w h x y : Nat) : Prop := 1 ≤ x ∧ x + 1 < w ∧ 1 ≤ y ∧ y + 1 < h

/-- R85: (dx, dy) of neighbour `i`, in the numbering NW, N, NE, W, E, SW, S, SE of R28. -/
def neighbourOffset : Fin 8 → Int × Int
  | 0 => (-1, -1)
  | 1 => (0, -1)
  | 2 => (1, -1)
  | 3 => (-1, 0)
  | 4 => (1, 0)
  | 5 => (-1, 1)
  | 6 => (0, 1)
  | 7 => (1, 1)

/-- R7, R82: the eight bits of `v` reread as two's complement. -/
def signed8 (v : Nat) : Int := if v < 128 then v else v - 256

/-- R120 to R122: LUMA of a pixel's three colour bytes, as the 8-bit neighbour register holds it. -/
def lumaValue (b g r : Byte) : Byte :=
  BitVec.ofInt 8 (signed8 ((b.toNat + g.toNat + r.toNat) / 3))

/-- n[i] of R28. -/
def Window.get (n : Window) : Fin 8 → Byte
  | 0 => n.n0
  | 1 => n.n1
  | 2 => n.n2
  | 3 => n.n3
  | 4 => n.n4
  | 5 => n.n5
  | 6 => n.n6
  | 7 => n.n7

/-- n[i] <- v of R10. -/
def Window.set (n : Window) (i : Fin 8) (v : Byte) : Window :=
  match i with
  | 0 => { n with n0 := v }
  | 1 => { n with n1 := v }
  | 2 => { n with n2 := v }
  | 3 => { n with n3 := v }
  | 4 => { n with n4 := v }
  | 5 => { n with n5 := v }
  | 6 => { n with n6 := v }
  | 7 => { n with n7 := v }

/-- R133: the column to the east less the column to the west, weighted 1, 2, 1. -/
def gradX (n : Window) : Int :=
  (n.n2.toInt + 2 * n.n4.toInt + n.n7.toInt) - (n.n0.toInt + 2 * n.n3.toInt + n.n5.toInt)

/-- R134: the row to the south less the row to the north, weighted 1, 2, 1. -/
def gradY (n : Window) : Int :=
  (n.n5.toInt + 2 * n.n6.toInt + n.n7.toInt) - (n.n0.toInt + 2 * n.n1.toInt + n.n2.toInt)

/-- The integer square root by base-4 digits; `fuel` bounds the number of digits. -/
def isqrtDigits : Nat → Nat → Nat
  | 0, _ => 0
  | fuel + 1, n =>
    if n = 0 then 0
    else
      let r := 2 * isqrtDigits fuel (n / 4)
      if (r + 1) * (r + 1) ≤ n then r + 1 else r

/-- R6, R153: the largest integer r with r*r ≤ n. -/
def isqrt (n : Nat) : Nat := isqrtDigits n n

/-- R157, R158: the narrowing, a configuration function of the root alone. -/
def narrowTo8 (mode : NarrowMode) (root : Nat) : Byte :=
  match mode with
  | .wrap => BitVec.ofNat 8 root
  | .saturate => BitVec.ofNat 8 (min root 255)

/-- R83: the output pixel with colour `mag` and alpha `a`, as a 32-bit value. -/
def outputPixel (a mag : Byte) : Word := a ++ mag ++ mag ++ mag

/-- R52: the 32-bit value of four bytes at rising addresses. -/
def wordOfBytes (b0 b1 b2 b3 : Byte) : Word := b3 ++ b2 ++ b1 ++ b0

/-- R52: the byte at offset `k` of a 32-bit value. -/
def byteOfWord (v : Word) (k : Nat) : Byte := v.extractLsb' (8 * k) 8

/-- R100, R103, R105: the interior pixels (x, y), rows outermost, both ascending. -/
def interiorPixels (w h : Nat) : List (Nat × Nat) :=
  (List.range (h - 2)).flatMap fun j => (List.range (w - 2)).map fun i => (i + 1, j + 1)

end Sys2Proof.Machine
end

