-- ==== Sys2Proof/Machine/Ops.lean ====
section
/-! DEFINITION. The named operations over the pixel memories and the registers, and the block's one error (spec/20_memory.md, spec/60_exceptions.md). -/

namespace Sys2Proof.Machine

/-- One outcome after another: a stop stays a stop. -/
def andThen (r : Result) (f : State → Result) : Result :=
  match r with
  | .next s => f s
  | .fault e => .fault e
  | .refused e => .refused e

/-- An operation that may fault. -/
def ofExcept (r : Except Fault State) : Result :=
  match r with
  | .ok s => .next s
  | .error e => .fault e

/-! ## Pixel memories -/

/-- The canonical form: strictly rising addresses. (An unlisted byte has no value, so no entry can equal one.) -/
abbrev Memory.wf (m : Memory) : Prop := m.Pairwise fun c d => c.1 < d.1

/-- The byte at an address, if it has been written since power-up (R36, U5). -/
def Memory.read : Memory → Nat → Option Byte
  | [], _ => none
  | c :: m, a => if c.1 = a then some c.2 else Memory.read m a

/-- Writes one byte, in canonical form. -/
def Memory.write : Memory → Nat → Byte → Memory
  | [], a, v => [(a, v)]
  | c :: m, a, v =>
    if a < c.1 then (a, v) :: c :: m
    else if a = c.1 then (a, v) :: m
    else c :: Memory.write m a v

/-- Gives every address below `k` the byte `f` names and leaves the rest. -/
def Memory.setPrefix (m : Memory) (k : Nat) (f : Nat → Byte) : Memory :=
  (List.range k).map (fun a => (a, f a)) ++ m.filter fun c => k ≤ c.1

/-- R10, R52: MemWrite of four bytes, least significant at `a`. -/
def Memory.writeWord (m : Memory) (a : Nat) (v : Word) : Memory :=
  (((m.write a (byteOfWord v 0)).write (a + 1) (byteOfWord v 1)).write (a + 2) (byteOfWord v 2)).write
    (a + 3) (byteOfWord v 3)

/-- MEM_BYTES, a multiple of 4 by construction (R5; log 4). -/
def State.memBytes (s : State) : Nat := 4 * s.memPixels

/-- The number of bytes of the image area, W*H*4 in the integers (R6, R50). -/
def State.imageBytes (s : State) : Nat := s.width.toNat * s.height.toNat * 4

/-- The memory a name stands for. -/
def State.mem (s : State) : PixelMem → Memory
  | .src => s.src
  | .dst => s.dst

/-- Replaces one memory. -/
def State.setMem (s : State) (m : PixelMem) (c : Memory) : State :=
  match m with
  | .src => { s with src := c }
  | .dst => { s with dst := c }

/-- MemRead of one byte (R10): outside the memory and never written are faults (R53, R179; log 5). -/
def State.readByte (s : State) (m : PixelMem) (a : Nat) : Except Fault Byte :=
  if a < s.memBytes then
    match (s.mem m).read a with
    | some v => .ok v
    | none => .error (.unwrittenByte m a)
  else .error (.outsideMemory m a)

/-- MemRead of four bytes (R10, R52). -/
def State.readWord (s : State) (m : PixelMem) (a : Nat) : Except Fault Word :=
  match s.readByte m a, s.readByte m (a + 1), s.readByte m (a + 2), s.readByte m (a + 3) with
  | .ok b0, .ok b1, .ok b2, .ok b3 => .ok (wordOfBytes b0 b1 b2 b3)
  | .error e, _, _, _ => .error e
  | _, .error e, _, _ => .error e
  | _, _, .error e, _ => .error e
  | _, _, _, .error e => .error e

/-- A host read has returned `v` (R170; log 14). -/
def State.answer (s : State) (v : Word) : State := { s with readData := v }

/-! ## The engine's accesses -/

/-- The byte at offset `k` of px(SRC, x, y) (R10, R51): a pixel outside the image is a fault, never a value (R53, U8). -/
def State.channel (s : State) (x y : Int) (k : Nat) : Except Fault Byte :=
  if 0 ≤ x ∧ x < s.width.toNat ∧ 0 ≤ y ∧ y < s.height.toNat then
    s.readByte .src (pixelAddr s.width.toNat x.toNat y.toNat + k)
  else .error (.outsideImage x y)

/-- LUMA(px(SRC, X+dx, Y+dy)) of neighbour `i` (R120, R131). The alpha byte is not read (D31; log 22). -/
def State.neighbourLuma (s : State) (i : Fin 8) : Except Fault Byte :=
  let x := (s.x.toNat : Int) + (neighbourOffset i).1
  let y := (s.y.toNat : Int) + (neighbourOffset i).2
  match s.channel x y 0, s.channel x y 1, s.channel x y 2 with
  | .ok b, .ok g, .ok r => .ok (lumaValue b g r)
  | .error e, _, _ => .error e
  | _, .error e, _ => .error e
  | _, _, .error e => .error e

/-- n[i] <- LUMA of neighbour i, the operation WINDOW performs eight times (R104, R131). -/
def State.sample (s : State) (i : Fin 8) : Result :=
  match s.neighbourLuma i with
  | .ok v => .next { s with n := s.n.set i v }
  | .error e => .fault e

/-- ALPHA <- px(SRC, X, Y).a, the last line of WINDOW (R131). -/
def State.sampleAlpha (s : State) : Result :=
  match s.channel s.x.toNat s.y.toNat 3 with
  | .ok v => .next { s with alpha := v }
  | .error e => .fault e

/-- R159: the store of the output pixel at (X, Y) of DST. -/
def State.storePixel (s : State) (v : Word) : Result :=
  let a := pixelAddr s.width.toNat s.x.toNat s.y.toNat
  if s.x.toNat < s.width.toNat ∧ s.y.toNat < s.height.toNat then
    if a + 4 ≤ s.memBytes then .next { s with dst := s.dst.writeWord a v }
    else .fault (.outsideMemory .dst a)
  else .fault (.outsideImage s.x.toNat s.y.toNat)

/-- R101: zero in every byte of DST below W*H*4. -/
def State.zeroImage (s : State) : Result :=
  if s.imageBytes ≤ s.memBytes then .next { s with dst := s.dst.setPrefix s.imageBytes fun _ => 0 }
  else .fault (.outsideMemory .dst s.memBytes)

/-! ## The error, and what is undefined -/

/-- raise ERR(RANGE): ERR <- 1, DONE <- 1, and nothing else (R191, R196).
There is no saved state and no return from it (R197). -/
def State.raiseRange (s : State) : State := { s with err := true, done := true }

/-- The working state undefined (R20, R36, R210): sixteen free values (log 7). -/
def State.undefineWorking (s : State) : State :=
  { s with
    x := Config.freeBits 32 s.draws
    y := Config.freeBits 32 (s.draws + 1)
    n := ⟨Config.freeBits 8 (s.draws + 2), Config.freeBits 8 (s.draws + 3), Config.freeBits 8 (s.draws + 4),
      Config.freeBits 8 (s.draws + 5), Config.freeBits 8 (s.draws + 6), Config.freeBits 8 (s.draws + 7),
      Config.freeBits 8 (s.draws + 8), Config.freeBits 8 (s.draws + 9)⟩
    alpha := Config.freeBits 8 (s.draws + 10)
    gx := Config.freeBits 11 (s.draws + 11)
    gy := Config.freeBits 11 (s.draws + 12)
    ss := Config.freeBits 21 (s.draws + 13)
    root := Config.freeBits 11 (s.draws + 14)
    mag := Config.freeBits 8 (s.draws + 15)
    draws := s.draws + 16 }

/-- The image area of DST unspecified after a run is abandoned: a free value in each of its bytes (R211, U7; log 8). -/
def State.abandonImage (s : State) : State :=
  let k := min s.imageBytes s.memBytes
  { s with
    dst := s.dst.setPrefix k fun a => Config.freeBits 8 (s.draws + a)
    draws := s.draws + k }

/-- A host access of `k` bytes at `a` of a pixel memory (R54, R62): not while BUSY = 1, not at or above MEM_BYTES.
DESIGN CHOICE (log 29), unsafe: once BUSY = 0 the access goes through (R171, R178, R179), also before a STATUS read has
returned DONE = 1, where R216 says that its effect is not defined. -/
def State.hostAccess (s : State) (m : PixelMem) (a k : Nat) (r : Result) : Result :=
  if s.busy then .refused .memoryAccessDuringRun
  else if a + k ≤ s.memBytes then r
  else .refused (.addressOutOfRange m a)

end Sys2Proof.Machine
end

