-- ==== Sys2Proof/Machine/Datapath.lean ====
section
/-! DEFINITION. The ten datapath operations (spec/40_apply.md to spec/43_magnitude.md).
Each is its rule's own effect; that the engine performs them only during a run is the sequencer's business (Machine/Engine.lean; log 13). -/

namespace Sys2Proof.Machine

/-- GX <- the horizontal gradient (R133). -/
def State.computeGx (s : State) : State := { s with gx := BitVec.ofInt 11 (gradX s.n) }

/-- GY <- the vertical gradient (R134). -/
def State.computeGy (s : State) : State := { s with gy := BitVec.ofInt 11 (gradY s.n) }

/-- SS <- GX*GX + GY*GY (R150). -/
def State.computeSs (s : State) : State :=
  { s with ss := BitVec.ofInt 21 (s.gx.toInt * s.gx.toInt + s.gy.toInt * s.gy.toInt) }

/-- ROOT <- isqrt(SS) (R153). -/
def State.computeRoot (s : State) : State := { s with root := BitVec.ofNat 11 (isqrt s.ss.toNat) }

/-- MAG <- ROOT narrowed to 8 bits (R157). -/
def State.computeMag (s : State) : State :=
  { s with mag := narrowTo8 Config.narrowMode s.root.toNat }

/-- LUMA on neighbours `is`, one after another. -/
def sampleAll : List (Fin 8) → State → Result
  | [], s => .next s
  | i :: is, s => andThen (s.sample i) (sampleAll is)

/-- WINDOW's effect: the eight neighbours, then the centre's alpha (R131). -/
def State.fillWindow (s : State) : Result :=
  andThen (sampleAll [0, 1, 2, 3, 4, 5, 6, 7] s) State.sampleAlpha

/-- PACK's effect (R159). -/
def State.packPixel (s : State) : Result := s.storePixel (outputPixel s.alpha s.mag)

/-- The per-pixel sequence at (x, y), in the order of R104. -/
def producePixel (p : Nat × Nat) (s : State) : Result :=
  andThen ({ s with x := BitVec.ofNat 32 p.1, y := BitVec.ofNat 32 p.2 }).fillWindow fun t =>
    t.computeGx.computeGy.computeSs.computeRoot.computeMag.packPixel

/-- The per-pixel sequence at each of some pixels, in order. -/
def producePixels : List (Nat × Nat) → State → Result
  | [], s => .next s
  | p :: ps, s => andThen (producePixel p s) (producePixels ps)

/-- APPLY (R100): ZFILL, then every interior pixel in the reference order of R105. Only completion (R180) remains. -/
def execApply (s : State) : Result :=
  andThen s.zeroImage fun t =>
    andThen (producePixels (interiorPixels t.width.toNat t.height.toNat) t) fun u =>
      .next { u with phase := .complete }

/-- ZFILL (R101). -/
def execZfill (s : State) : Result := s.zeroImage

/-- WINDOW (R131). -/
def execWindow (s : State) : Result := s.fillWindow

/-- LUMA of one neighbour (R120, R131). -/
def execLuma (i : Fin 8) (s : State) : Result := s.sample i

/-- GX (R133). -/
def execGx (s : State) : Result := .next s.computeGx

/-- GY (R134). -/
def execGy (s : State) : Result := .next s.computeGy

/-- SQSUM (R150). -/
def execSqsum (s : State) : Result := .next s.computeSs

/-- ROOT (R153). -/
def execRoot (s : State) : Result := .next s.computeRoot

/-- NARROW (R157). -/
def execNarrow (s : State) : Result := .next s.computeMag

/-- PACK (R159). -/
def execPack (s : State) : Result := s.packPixel

end Sys2Proof.Machine
end

