-- ==== Sys2Proof/Machine/PixelPort.lean ====
section
/-! DEFINITION. The host's pixel memory transactions (spec/44_host_commands.md R178, R179, spec/20_memory.md R54, R62). -/

namespace Sys2Proof.Machine

/-- R54: a 32-bit access that is not at a multiple of 4 is not a transaction of this block. -/
def aligned (a : Nat) (r : Result) : Result :=
  if a % 4 = 0 then r else .refused (.notATransaction .memAlign)

/-- WRB (R178). -/
def execWrb (m : PixelMem) (a : Nat) (v : Byte) (s : State) : Result :=
  s.hostAccess m a 1 (.next (s.setMem m ((s.mem m).write a v)))

/-- RDB (R179); the byte is returned in the low bits. -/
def execRdb (m : PixelMem) (a : Nat) (s : State) : Result :=
  s.hostAccess m a 1 (ofExcept ((s.readByte m a).map fun v => s.answer (v.setWidth 32)))

/-- WRP (R178). -/
def execWrp (m : PixelMem) (a : Nat) (v : Word) (s : State) : Result :=
  aligned a (s.hostAccess m a 4 (.next (s.setMem m ((s.mem m).writeWord a v))))

/-- RDP (R179). -/
def execRdp (m : PixelMem) (a : Nat) (s : State) : Result :=
  aligned a (s.hostAccess m a 4 (ofExcept ((s.readWord m a).map s.answer)))

end Sys2Proof.Machine
end

