-- ==== Sys2Proof/Machine/Registers.lean ====
section
/-! DEFINITION. The register transactions (spec/44_host_commands.md R172 to R177, R181). -/

namespace Sys2Proof.Machine

/-- An accepted START (R174): the range check, then the error or the run. The product is over the integers. -/
def State.start (s : State) : State :=
  if s.imageBytes > s.memBytes then s.clearResult.raiseRange else s.clearResult.beginRun

/-- WR_CTRL (R174, R175): a START when bit 0 is 1 and BUSY = 0, and otherwise nothing. -/
def execWrCtrl (v : Word) (s : State) : Result :=
  if v.getLsbD 0 = true ∧ s.busy = false then .next s.start else .next s

/-- RD_CTRL (R177). -/
def execRdCtrl (s : State) : Result := .next (s.answer 0)

/-- RD_STATUS (R176). -/
def execRdStatus (s : State) : Result := .next (s.answer s.statusWord)

/-- WR_STATUS (R177): ignored in every state. -/
def execWrStatus (_v : Word) (s : State) : Result := .next s

/-- WR_WIDTH (R172, R175). -/
def execWrWidth (v : Word) (s : State) : Result :=
  if s.busy then .next s else .next { s with width := v }

/-- RD_WIDTH (R173). -/
def execRdWidth (s : State) : Result := .next (s.answer s.width)

/-- WR_HEIGHT (R172, R175). -/
def execWrHeight (v : Word) (s : State) : Result :=
  if s.busy then .next s else .next { s with height := v }

/-- RD_HEIGHT (R173). -/
def execRdHeight (s : State) : Result := .next (s.answer s.height)

/-- A 32-bit read of a register offset at or above 0x10 (R181): 0. -/
def readUnmapped (s : State) : Result := .next (s.answer 0)

/-- A 32-bit write of a register offset at or above 0x10 (R181): ignored. -/
def writeUnmapped (s : State) : Result := .next s

end Sys2Proof.Machine
end

