-- ==== Sys2Proof/Machine/Reset.lean ====
section
/-! DEFINITION. The reset input (spec/70_reset_and_hazards.md R210, R211). -/

namespace Sys2Proof.Machine

/-- RESET (R210, R211): registers 0, the engine idle, the working state undefined.
Both memories keep their contents, except that a run in progress leaves the image area of DST unspecified. -/
def execReset (s : State) : Result :=
  let t := if s.busy then s.abandonImage else s
  .next { t.undefineWorking with
    width := 0
    height := 0
    busy := false
    done := false
    err := false
    phase := .zfill }

end Sys2Proof.Machine
end

