-- ==== Sys2Proof/Machine/Dispatch.lean ====
section
/-! DEFINITION. One arm for each operation of spec/30_encoding.md R90. -/

namespace Sys2Proof.Machine

def exec (i : Instr) (s : State) : Host.Outcome State Fault Refusal :=
  match i with
  | .apply => Sys2Proof.Machine.execApply s
  | .zfill => Sys2Proof.Machine.execZfill s
  | .window => Sys2Proof.Machine.execWindow s
  | .luma k => Sys2Proof.Machine.execLuma k s
  | .gx => Sys2Proof.Machine.execGx s
  | .gy => Sys2Proof.Machine.execGy s
  | .sqsum => Sys2Proof.Machine.execSqsum s
  | .root => Sys2Proof.Machine.execRoot s
  | .narrow => Sys2Proof.Machine.execNarrow s
  | .pack => Sys2Proof.Machine.execPack s
  | .wrCtrl v => Sys2Proof.Machine.execWrCtrl v s
  | .rdCtrl => Sys2Proof.Machine.execRdCtrl s
  | .rdStatus => Sys2Proof.Machine.execRdStatus s
  | .wrStatus v => Sys2Proof.Machine.execWrStatus v s
  | .wrWidth v => Sys2Proof.Machine.execWrWidth v s
  | .rdWidth => Sys2Proof.Machine.execRdWidth s
  | .wrHeight v => Sys2Proof.Machine.execWrHeight v s
  | .rdHeight => Sys2Proof.Machine.execRdHeight s
  | .wrb m a v => Sys2Proof.Machine.execWrb m a v s
  | .rdb m a => Sys2Proof.Machine.execRdb m a s
  | .wrp m a v => Sys2Proof.Machine.execWrp m a v s
  | .rdp m a => Sys2Proof.Machine.execRdp m a s
  | .reset => Sys2Proof.Machine.execReset s

end Sys2Proof.Machine
end

