-- ==== Sys2Proof/Machine/Engine.lean ====
section
/-! DEFINITION. The sequencer of the engine and the moves of the two agents (spec/40_apply.md R104, R105, spec/44_host_commands.md R170, R171, R180). -/

namespace Sys2Proof.Machine

/-- R90's order number of the operation the engine performs in a phase; completion is no row of the table. -/
def Phase.order : Phase → Option Nat
  | .zfill => some 1
  | .window => some 2
  | .gx => some 4
  | .gy => some 5
  | .sqsum => some 6
  | .root => some 7
  | .narrow => some 8
  | .pack => some 9
  | .complete => none

/-- R105: the scan position after (X, Y), if a pixel is left. -/
def State.nextPixel (s : State) : Option (Word × Word) :=
  if s.x.toNat + 1 + 1 < s.width.toNat then some (s.x + 1, s.y)
  else if s.y.toNat + 1 + 1 < s.height.toNat then some (1, s.y + 1)
  else none

/-- R105, R108: the first scan position, if there is an interior pixel. -/
def State.firstPixel (s : State) : Option (Word × Word) :=
  if 1 + 1 < s.width.toNat ∧ 1 + 1 < s.height.toNat then some (1, 1) else none

/-- Sets the scan position and begins its sequence, or leaves only completion. -/
def State.scanTo (s : State) (p : Option (Word × Word)) : State :=
  match p with
  | some (x, y) => { s with x := x, y := y, phase := .window }
  | none => { s with phase := .complete }

/-- The sequencer after the operation of the present phase: R104's order, then the next pixel (R105; log 9, log 10). -/
def State.advance (s : State) : State :=
  match s.phase with
  | .zfill => s.scanTo s.firstPixel
  | .window => { s with phase := .gx }
  | .gx => { s with phase := .gy }
  | .gy => { s with phase := .sqsum }
  | .sqsum => { s with phase := .root }
  | .root => { s with phase := .narrow }
  | .narrow => { s with phase := .pack }
  | .pack => s.scanTo s.nextPixel
  | .complete => s

/-- R180: the completion step. The run being over, the working state holds no defined value (R20; log 7). -/
def State.completeRun (s : State) : State := s.endRun.undefineWorking

/-- What a selector does, around `exec`: the unmapped register accesses of R181, and the refusals. -/
def perform (d : Decoded) (s : State) : Result :=
  match d with
  | .instr i => exec i s
  | .unmappedRead => readUnmapped s
  | .unmappedWrite => writeUnmapped s
  | .rejected r => .refused (.notATransaction r)

/-- The engine's turn (R11, R171): its next operation while BUSY = 1, and no step otherwise. -/
def engineTurn (s : State) : Result :=
  if s.busy then
    match s.phase.order with
    | some k => andThen (perform (decode (.datapath k 0)) s) fun t => .next t.advance
    | none => .next s.completeRun
  else .next s

/-- The engine's turn when it takes the whole of APPLY at once (D24): only where a run is about to begin. -/
def engineRunTurn (s : State) : Result :=
  if s.busy ∧ s.phase = .zfill then perform (decode (.datapath 0 0)) s else engineTurn s

/-- The host's WAIT (R94; log 21): one read of STATUS; where it shows DONE = 0, the engine has a turn and the host reads again. -/
def waitTurn (s : State) : Result :=
  andThen (perform (decode (encode .rdStatus)) s) fun t =>
    if t.readData.getLsbD 1 = true then .next t
    else .next { t with script := .engineOp :: .wait :: t.script }

/-- One move of one agent (R170: a transaction is atomic, between two engine steps). -/
def makeMove (m : Move) (s : State) : Result :=
  match m with
  | .host h => perform (decode (.host h)) s
  | .wait => waitTurn s
  | .engineOp => engineTurn s
  | .engineRun => engineRunTurn s

end Sys2Proof.Machine
end

