-- ==== Sys2Proof/Machine/Step.lean ====
section
/-! DEFINITION. One step of the block (spec/00_scope.md R11, spec/44_host_commands.md R170). -/

namespace Sys2Proof.Machine

/-- One step: the next move of the script, or, when there is none, the engine's turn (log 2, log 18). -/
def step (s : State) : Host.Outcome State Fault Refusal :=
  match s.script with
  | [] => engineTurn s
  | m :: rest => makeMove m { s with script := rest }

/-- The state in which the next step is the host input that a table word of `nbits` bits stands for (log 3). -/
def State.withFetchWord (s : State) (nbits w : Nat) : State :=
  { s with script := .host (HostInput.ofNat (w % 2 ^ nbits)) :: s.script }

end Sys2Proof.Machine
end

