-- ==== Sys2Proof/Safety.lean ====
section
/-! DEFINITION. What claims about the block are stated in: its invariant, what a host owes before a run, and the result of APPLY
as spec/40_apply.md R100 writes it. -/

namespace Sys2Proof.Machine

/-- `k` steps, stopping at the first fault or refusal. -/
def runSteps : Nat → State → Result
  | 0, s => .next s
  | k + 1, s => andThen (step s) (runSteps k)

/-! ## The invariant -/

/-- R24, R87: the legal values of ERR, DONE, BUSY are 000, 001, 010 and 110. -/
abbrev State.StatusLegal (s : State) : Prop :=
  (s.busy = true → s.done = false) ∧ (s.err = true → s.done = true)

/-- The memories are in canonical form and list no address at or above MEM_BYTES (R31, R32). -/
abbrev State.MemoriesLegal (s : State) : Prop :=
  s.src.wf ∧ s.dst.wf ∧ (∀ c ∈ s.src, c.1 < s.memBytes) ∧ ∀ c ∈ s.dst, c.1 < s.memBytes

/-- The phases of R104's per-pixel sequence. -/
abbrev Phase.perPixel (p : Phase) : Prop := p ≠ .zfill ∧ p ≠ .complete

/-- Whether the operation of phase `q` has been performed for the present pixel, in phase `p`. -/
def Phase.after (p q : Phase) : Bool :=
  match p.order, q.order with
  | some k, some j => j < k
  | none, _ => false
  | some _, none => false

/-- The scan position is an interior pixel while one is produced (R27, R53). -/
abbrev State.ScanInside (s : State) : Prop :=
  s.busy = true → s.phase.perPixel → Interior s.width.toNat s.height.toNat s.x.toNat s.y.toNat

/-- Each register and stage value of the present pixel holds what its rule computes (R131, R133, R134, R150, R153, R157). -/
abbrev State.StagesHeld (s : State) : Prop :=
  s.busy = true →
    (s.phase.after .window = true →
      (∀ i : Fin 8, (s.neighbourLuma i).toOption = some (s.n.get i)) ∧
        (s.channel s.x.toNat s.y.toNat 3).toOption = some s.alpha) ∧
    (s.phase.after .gx = true → s.gx.toInt = gradX s.n) ∧
    (s.phase.after .gy = true → s.gy.toInt = gradY s.n) ∧
    (s.phase.after .sqsum = true →
      (s.ss.toNat : Int) = s.gx.toInt * s.gx.toInt + s.gy.toInt * s.gy.toInt) ∧
    (s.phase.after .root = true → s.root.toNat = isqrt s.ss.toNat) ∧
    (s.phase.after .narrow = true → s.mag.toNat = s.root.toNat % 256)

/-- What holds at reset and what every step keeps. -/
structure State.Inv (s : State) : Prop where
  /-- R24, R87. -/
  status : s.StatusLegal
  /-- R31, R32; log 5. -/
  memories : s.MemoriesLegal
  /-- R33, R191: the image of a run fits. -/
  fits : s.busy = true → s.imageBytes ≤ s.memBytes
  /-- Log 16: outside a run the sequencer is at its beginning. -/
  idlePhase : s.busy = false → s.phase = .zfill
  /-- R27, R53. -/
  scan : s.ScanInside
  /-- R131 to R157. -/
  stages : s.StagesHeld

/-! ## What a run needs of SRC -/

/-- The bytes the sequence at (x, y) reads have been written: B, G, R of the eight neighbours and A of the centre (R213). -/
abbrev State.PixelWritten (s : State) (x y : Nat) : Prop :=
  (∀ i : Fin 8, ∀ k < 3,
    (s.src.read (pixelAddr s.width.toNat (x + (neighbourOffset i).1).toNat (y + (neighbourOffset i).2).toNat + k)).isSome
      = true) ∧
  (s.src.read (pixelAddr s.width.toNat x y + 3)).isSome = true

/-- R213, item 3: every byte of SRC that the run reads has been written. -/
abbrev State.SourceWritten (s : State) : Prop :=
  ∀ y < s.height.toNat, ∀ x < s.width.toNat,
    Interior s.width.toNat s.height.toNat x y → s.PixelWritten x y

/-- The four bytes of pixel (x, y) of an image `w` wide in `c` are those of pixel (x', y') of one `w'` wide in `d`. -/
def SamePixel (c : Memory) (w x y : Nat) (d : Memory) (w' x' y' : Nat) : Prop :=
  ∀ k < 4, c.read (pixelAddr w x y + k) = d.read (pixelAddr w' x' y' + k)

/-! ## The result of APPLY, as R100 writes it -/

/-- The byte at offset `k` of src(x, y) in R100, as an unsigned number (0 where it has never been written). -/
def State.srcByte (s : State) (x y k : Nat) : Nat :=
  ((s.src.read (pixelAddr s.width.toNat x y + k)).getD 0).toNat

/-- LUMA(src(x, y)) of R100. -/
def State.lumaAt (s : State) (x y : Nat) : Int :=
  signed8 ((s.srcByte x y 0 + s.srcByte x y 1 + s.srcByte x y 2) / 3)

/-- GX of R100 at an interior pixel (x, y). -/
def State.gxAt (s : State) (x y : Nat) : Int :=
  (s.lumaAt (x + 1) (y - 1) + 2 * s.lumaAt (x + 1) y + s.lumaAt (x + 1) (y + 1))
    - (s.lumaAt (x - 1) (y - 1) + 2 * s.lumaAt (x - 1) y + s.lumaAt (x - 1) (y + 1))

/-- GY of R100 at an interior pixel (x, y). -/
def State.gyAt (s : State) (x y : Nat) : Int :=
  (s.lumaAt (x - 1) (y + 1) + 2 * s.lumaAt x (y + 1) + s.lumaAt (x + 1) (y + 1))
    - (s.lumaAt (x - 1) (y - 1) + 2 * s.lumaAt x (y - 1) + s.lumaAt (x + 1) (y - 1))

/-- MAG of R100 at an interior pixel (x, y). -/
def State.magAt (s : State) (x y : Nat) : Nat :=
  isqrt (s.gxAt x y * s.gxAt x y + s.gyAt x y * s.gyAt x y).toNat % 256

/-- The byte at offset `k` of dst(x, y) after APPLY (R83, R100, R107). -/
def State.resultByte (s : State) (x y k : Nat) : Byte :=
  if Interior s.width.toNat s.height.toNat x y then
    BitVec.ofNat 8 (if k = 3 then s.srcByte x y 3 else s.magAt x y)
  else 0

/-- The image area of `d` holds the result of APPLY on the image of `s` (R100), and the rest of `d` is the DST of `s`. -/
def State.FilteredInto (s : State) (d : Memory) : Prop :=
  (∀ x y k, x < s.width.toNat → y < s.height.toNat → k < 4 →
    d.read (pixelAddr s.width.toNat x y + k) = some (s.resultByte x y k)) ∧
  ∀ a, s.imageBytes ≤ a → d.read a = s.dst.read a

end Sys2Proof.Machine
end

