-- ==== Sys2Proof/Certificates/Slice0/Obligations.lean ====
section
/-! DEFINITION. The statements for the provers, each from a rule of spec/. -/

open Sys2Proof Sys2Proof.Machine

/-! ## Encoding and decoding -/

/-- R90, R94: what selects a well-formed operation is decoded as that operation, with every operand. -/
def Obligations.DecodeOfEncodeIsTheInstruction : Prop :=
  ∀ i : Instr, i.wellFormed = true → decode (encode i) = .instr i

/-- R90, R94: a bus transaction that names an operation names a well-formed one, and that operation's own
encoding is the same transaction in every column but a data column the operation does not keep. -/
def Obligations.DecodedTransactionEncodesBack : Prop :=
  ∀ (t : Txn) (i : Instr), decode (.host (.bus t)) = .instr i →
    i.wellFormed = true ∧
    ∃ d : Word, encode i = .host (.bus { t with data := d }) ∧
      (t.dir = .write → t.width = 4 → d = t.data) ∧ (t.dir = .write → t.width = 1 → d.setWidth 8 = t.data.setWidth 8)

/-- Log 1 (the model's choice of bits): no field of a host input is lost in the number that stands for it. -/
def Obligations.TransactionNumberRoundTrips : Prop :=
  ∀ h : HostInput, (∀ t, h = .bus t → t.width < 512) → HostInput.ofNat h.toNat = h

/-- R90, R94: rows of the operation map, written out as tuples and as order numbers. -/
def Obligations.SampleSelectorsDecode : Prop :=
  decode (.host (.bus ⟨.reg, .write, 4, 0x08, 0x00000004⟩)) = .instr (.wrWidth 4) ∧
  decode (.host (.bus ⟨.reg, .write, 4, 0x00, 0x00000001⟩)) = .instr (.wrCtrl 1) ∧
  decode (.host (.bus ⟨.reg, .read, 4, 0x04, 0⟩)) = .instr .rdStatus ∧
  decode (.host (.bus ⟨.pixels .src, .write, 1, 0x03, 0x10⟩)) = .instr (.wrb .src 3 0x10) ∧
  decode (.host (.bus ⟨.pixels .dst, .read, 4, 0x14, 0⟩)) = .instr (.rdp .dst 20) ∧
  decode (.host .reset) = .instr .reset ∧
  decode (.datapath 0 0) = .instr .apply ∧
  decode (.datapath 9 0) = .instr .pack

/-- Log 3: a word of the opcode table placed by `withFetchWord` is what the next step runs. -/
def Obligations.TableWordRunsNext : Prop :=
  ∀ (s : State) (nbits w : Nat) (i : Instr), decodeTableWord nbits w = some i →
    step (s.withFetchWord nbits w) = exec i s

/-! ## The step -/

/-- R170: a step whose move is a host input that names an operation runs exactly that operation, the move being taken
off the script. -/
def Obligations.StepRunsTheHostsInstruction : Prop :=
  ∀ (s : State) (h : HostInput) (rest : List Move) (i : Instr),
    s.script = .host h :: rest → decode (.host h) = .instr i →
    step s = exec i { s with script := rest }

/-- In a run, a step that is the engine's runs the operation of its place in the order of R104 (order numbers of R90), and
then the sequencer advances; a step whose move is engineRun, at the beginning of a run, is APPLY. That one engine step is one
operation, chosen by `phase` and followed by `advance`, or by engineRun the whole of APPLY, is the model's choice (log 16,
log 17), and so is that an empty script lets the engine move (log 2). -/
def Obligations.EngineTurnRunsItsOperation : Prop :=
  ∀ (s : State) (rest : List Move), s.busy = true →
    (∀ (k : Nat) (i : Instr),
      (s.script = .engineOp :: rest ∨ (s.script = [] ∧ rest = []) ∨
        (s.script = .engineRun :: rest ∧ s.phase ≠ .zfill)) →
      s.phase.order = some k → decode (.datapath k 0) = .instr i →
      step s = andThen (exec i { s with script := rest }) fun t => .next t.advance) ∧
    (s.script = .engineRun :: rest → s.phase = .zfill → step s = exec .apply { s with script := rest })

/-- R11, R171: while BUSY = 0 the engine takes no step. -/
def Obligations.IdleEngineTakesNoStep : Prop :=
  ∀ (s : State) (rest : List Move), s.busy = false →
    (s.script = [] → step s = .next s) ∧
    (s.script = .engineOp :: rest ∨ s.script = .engineRun :: rest → step s = .next { s with script := rest })

/-- R180: at the end of APPLY the engine clears BUSY and sets DONE in one step, and leaves the registers, both memories
and ERR alone. (That the working state is then undefined is R20; nothing is said of it.) That `phase` says where the engine
is, and that an empty script lets it move, is the model's choice (log 16, log 2). -/
def Obligations.CompletionSetsDone : Prop :=
  ∀ (s : State) (rest : List Move),
    (s.script = .engineOp :: rest ∨ (s.script = [] ∧ rest = [])) → s.busy = true → s.phase = .complete →
    ∃ t, step s = .next t ∧ t.busy = false ∧ t.done = true ∧ t.err = s.err ∧ t.width = s.width ∧
      t.height = s.height ∧ t.src = s.src ∧ t.dst = s.dst ∧ t.memPixels = s.memPixels ∧ t.readData = s.readData ∧
      t.script = rest

/-- R94 (log 21): WAIT reads STATUS; it is over when the value has DONE = 1, and otherwise the engine moves and WAIT reads again. -/
def Obligations.WaitPollsUntilDone : Prop :=
  ∀ (s : State) (rest : List Move), s.script = .wait :: rest →
    step s = .next { s with
      readData := s.statusWord
      script := if s.done then rest else .engineOp :: .wait :: rest }

/-! ## Reset -/

/-- R36: the block after a power-up reset, whatever its capacity: registers and STATUS 0, no byte of either memory
written, and a START then is a valid run. -/
def Obligations.PowerUpState : Prop :=
  ∀ n : Nat,
    (State.powerUp n).width = 0 ∧ (State.powerUp n).height = 0 ∧ (State.powerUp n).statusWord = 0 ∧
    (∀ m a, ((State.powerUp n).mem m).read a = none) ∧
    ∃ t, exec (.wrCtrl 1) (State.powerUp n) = .next t ∧ t.statusWord = 1 ∧
      t.src = (State.powerUp n).src ∧ t.dst = (State.powerUp n).dst

/-- R210: RESET while idle clears the registers and STATUS and keeps both memories; only the reset input is a RESET. -/
def Obligations.ResetWhileIdle : Prop :=
  (∀ s : State, s.busy = false →
    ∃ t, exec .reset s = .next t ∧ t.width = 0 ∧ t.height = 0 ∧ t.busy = false ∧ t.done = false ∧ t.err = false ∧
      t.src = s.src ∧ t.dst = s.dst ∧ t.memPixels = s.memPixels ∧ t.readData = s.readData ∧ t.script = s.script) ∧
  ∀ sel : Selector, decode sel = .instr .reset ↔ sel = .host .reset

/-- R211: RESET during a run: the registers take their reset values, DONE is not reported, SRC is unchanged, and so is
DST at and above W*H*4 of the abandoned run. Nothing is said of the bytes below. -/
def Obligations.ResetDuringRunAbandonsIt : Prop :=
  ∀ s : State, s.busy = true →
    ∃ t, exec .reset s = .next t ∧ t.width = 0 ∧ t.height = 0 ∧ t.busy = false ∧ t.done = false ∧ t.err = false ∧
      t.src = s.src ∧ (∀ a, s.imageBytes ≤ a → t.dst.read a = s.dst.read a) ∧ t.memPixels = s.memPixels ∧
      t.readData = s.readData ∧ t.script = s.script

/-! ## Register transactions -/

/-- R172: WR_WIDTH and WR_HEIGHT while idle write their register and nothing else, and are dropped while BUSY = 1. -/
def Obligations.SizeRegisterWrites : Prop :=
  ∀ (v : Word) (s : State),
    decode (.host (.bus ⟨.reg, .write, 4, 0x08, v⟩)) = .instr (.wrWidth v) ∧
    decode (.host (.bus ⟨.reg, .write, 4, 0x0C, v⟩)) = .instr (.wrHeight v) ∧
    (s.busy = false → exec (.wrWidth v) s = .next { s with width := v } ∧
      exec (.wrHeight v) s = .next { s with height := v }) ∧
    (s.busy = true → exec (.wrWidth v) s = .next s ∧ exec (.wrHeight v) s = .next s)

/-- R173: RD_WIDTH and RD_HEIGHT return the register in every state and have no side effect. -/
def Obligations.SizeRegisterReads : Prop :=
  ∀ (d : Word) (s : State),
    decode (.host (.bus ⟨.reg, .read, 4, 0x08, d⟩)) = .instr .rdWidth ∧
    decode (.host (.bus ⟨.reg, .read, 4, 0x0C, d⟩)) = .instr .rdHeight ∧
    exec .rdWidth s = .next { s with readData := s.width } ∧
    exec .rdHeight s = .next { s with readData := s.height }

/-- R174: START. Bit 0 = 0, or BUSY = 1: nothing. Accepted with an image that does not fit: ERR and DONE. Accepted with
one that fits, the product taken in the integers: BUSY alone, and the engine is at the beginning of APPLY. -/
def Obligations.StartCommand : Prop :=
  ∀ (v : Word) (s : State),
    decode (.host (.bus ⟨.reg, .write, 4, 0x00, v⟩)) = .instr (.wrCtrl v) ∧
    (v.getLsbD 0 = false → exec (.wrCtrl v) s = .next s) ∧
    (s.busy = true → exec (.wrCtrl v) s = .next s) ∧
    (v.getLsbD 0 = true → s.busy = false → s.width.toNat * s.height.toNat * 4 > s.memBytes →
      exec (.wrCtrl v) s = .next { s with done := true, err := true }) ∧
    (v.getLsbD 0 = true → s.busy = false → s.width.toNat * s.height.toNat * 4 ≤ s.memBytes →
      exec (.wrCtrl v) s = .next { s with busy := true, done := false, err := false, phase := .zfill })

/-- R191: ERR(RANGE) leaves STATUS = 6, and every register and byte as it was. -/
def Obligations.RangeErrorTouchesNothing : Prop :=
  ∀ (v : Word) (s : State), v.getLsbD 0 = true → s.busy = false →
    s.width.toNat * s.height.toNat * 4 > s.memBytes →
    ∃ t, exec (.wrCtrl v) s = .next t ∧ t.statusWord = 0x00000006 ∧ t.busy = false ∧
      t = { s with done := t.done, err := t.err }

/-- R175: while BUSY = 1 the register writes have no effect at all, and the size of a run cannot change under it. -/
def Obligations.RegisterWritesLostDuringRun : Prop :=
  (∀ (v : Word) (s : State), s.busy = true →
    exec (.wrWidth v) s = .next s ∧ exec (.wrHeight v) s = .next s ∧ exec (.wrCtrl v) s = .next s) ∧
  ∀ s t : State, s.busy = true → step s = .next t → t.busy = true → t.width = s.width ∧ t.height = s.height

/-- R176: RD_STATUS returns 29 zero bits, ERR, DONE and BUSY, has no side effect, and can return 0, 1, 2 or 6 only. -/
def Obligations.StatusRead : Prop :=
  ∀ (d : Word) (s : State),
    decode (.host (.bus ⟨.reg, .read, 4, 0x04, d⟩)) = .instr .rdStatus ∧
    ∃ v : Word, exec .rdStatus s = .next { s with readData := v } ∧
      v.getLsbD 0 = s.busy ∧ v.getLsbD 1 = s.done ∧ v.getLsbD 2 = s.err ∧ v.toNat < 8 ∧
      (s.StatusLegal → v = 0 ∨ v = 1 ∨ v = 2 ∨ v = 6)

/-- R177: RD_CTRL returns 0 in every state, and WR_STATUS is ignored in every state. -/
def Obligations.CtrlReadsZeroStatusWriteIgnored : Prop :=
  ∀ (v : Word) (s : State),
    decode (.host (.bus ⟨.reg, .read, 4, 0x00, v⟩)) = .instr .rdCtrl ∧
    decode (.host (.bus ⟨.reg, .write, 4, 0x04, v⟩)) = .instr (.wrStatus v) ∧
    exec .rdCtrl s = .next { s with readData := 0x00000000 } ∧ exec (.wrStatus v) s = .next s

/-- R181: a 32-bit access at a multiple of 4 at or above 0x10 reads 0 and ignores writes; another width or an offset that
is no multiple of 4 is refused. -/
def Obligations.RegisterAccessOutsideTheMap : Prop :=
  ∀ (s : State) (t : Txn) (rest : List Move), s.script = .host (.bus t) :: rest → t.space = .reg →
    (t.width = 4 → t.addr % 4 = 0 → 0x10 ≤ t.addr →
      (t.dir = .read → step s = .next { s with script := rest, readData := 0 }) ∧
      (t.dir = .write → step s = .next { s with script := rest })) ∧
    (t.width ≠ 4 ∨ t.addr % 4 ≠ 0 → ∃ r, step s = .refused r)

/-! ## Pixel memory transactions -/

/-- R54: while idle, a byte anywhere below MEM_BYTES, or 32 bits at a multiple of 4 up to MEM_BYTES - 4, is a transaction: it
goes through, but for a read of a byte that nothing has written, which faults (R179; the model's choice, log 5). An access of
another width, misaligned, or reaching MEM_BYTES is refused. That BUSY = 0 suffices, also before a STATUS read has returned
DONE = 1, where R216 leaves the effect undefined, is the model's choice (log 29). -/
def Obligations.PixelMemoryAccessShapes : Prop :=
  ∀ (s : State) (t : Txn) (rest : List Move) (m : PixelMem),
    s.script = .host (.bus t) :: rest → t.space = .pixels m → s.busy = false →
    ((t.width = 1 ∨ (t.width = 4 ∧ t.addr % 4 = 0)) → t.addr + t.width ≤ s.memBytes →
      (t.dir = .read → ∀ k < t.width, ((s.mem m).read (t.addr + k)).isSome = true) → ∃ u, step s = .next u) ∧
    ((t.width = 1 ∨ (t.width = 4 ∧ t.addr % 4 = 0)) → t.addr + t.width ≤ s.memBytes → t.dir = .read →
      ∀ k < t.width, (s.mem m).read (t.addr + k) = none →
        ∃ j < t.width, step s = .fault (.unwrittenByte m (t.addr + j))) ∧
    (¬ (t.width = 1 ∨ (t.width = 4 ∧ t.addr % 4 = 0)) ∨ s.memBytes < t.addr + t.width → ∃ r, step s = .refused r)

/-- R178: WRB and WRP write the bytes of their data, least significant lowest, and change nothing else; they are refused
while BUSY = 1. That BUSY = 0 suffices, also in the window whose accesses R216 leaves undefined, is the model's choice (log 29). -/
def Obligations.PixelMemoryWrites : Prop :=
  ∀ (s : State) (m : PixelMem) (a : Nat),
    (∀ w : Word, decode (.host (.bus ⟨.pixels m, .write, 1, a, w⟩)) = .instr (.wrb m a (w.setWidth 8)) ∧
      (a % 4 = 0 → decode (.host (.bus ⟨.pixels m, .write, 4, a, w⟩)) = .instr (.wrp m a w))) ∧
    (∀ v : Byte, s.busy = false → a < s.memBytes →
      ∃ t, exec (.wrb m a v) s = .next t ∧
        (∀ b, (t.mem m).read b = if b = a then some v else (s.mem m).read b) ∧
        t = match m with | .src => { s with src := t.src } | .dst => { s with dst := t.dst }) ∧
    (∀ v : Word, s.busy = false → a % 4 = 0 → a + 4 ≤ s.memBytes →
      ∃ t, exec (.wrp m a v) s = .next t ∧
        (∀ b, (t.mem m).read b =
          if b = a then some (v.extractLsb' 0 8) else if b = a + 1 then some (v.extractLsb' 8 8)
          else if b = a + 2 then some (v.extractLsb' 16 8) else if b = a + 3 then some (v.extractLsb' 24 8)
          else (s.mem m).read b) ∧
        t = match m with | .src => { s with src := t.src } | .dst => { s with dst := t.dst }) ∧
    (∀ (v : Byte) (w : Word), s.busy = true →
      (∃ r, exec (.wrb m a v) s = .refused r) ∧ ∃ r, exec (.wrp m a w) s = .refused r)

/-- R179: RDB and RDP return the byte, or the four bytes, least significant lowest, with no side effect; a byte never
written faults (the model's choice, log 5); they are refused while BUSY = 1. That BUSY = 0 suffices, also in the window whose
accesses R216 leaves undefined, is the model's choice (log 29). -/
def Obligations.PixelMemoryReads : Prop :=
  ∀ (s : State) (m : PixelMem) (a : Nat),
    (∀ w : Word, decode (.host (.bus ⟨.pixels m, .read, 1, a, w⟩)) = .instr (.rdb m a) ∧
      (a % 4 = 0 → decode (.host (.bus ⟨.pixels m, .read, 4, a, w⟩)) = .instr (.rdp m a))) ∧
    (∀ v, s.busy = false → a < s.memBytes → (s.mem m).read a = some v →
      exec (.rdb m a) s = .next { s with readData := BitVec.ofNat 32 v.toNat }) ∧
    (∀ b0 b1 b2 b3, s.busy = false → a % 4 = 0 → a + 4 ≤ s.memBytes → (s.mem m).read a = some b0 →
      (s.mem m).read (a + 1) = some b1 → (s.mem m).read (a + 2) = some b2 → (s.mem m).read (a + 3) = some b3 →
      exec (.rdp m a) s = .next { s with
        readData := BitVec.ofNat 32 (b0.toNat + 256 * b1.toNat + 65536 * b2.toNat + 16777216 * b3.toNat) }) ∧
    (s.busy = false → a < s.memBytes → (s.mem m).read a = none →
      exec (.rdb m a) s = .fault (.unwrittenByte m a)) ∧
    (∀ k < 4, s.busy = false → a % 4 = 0 → a + 4 ≤ s.memBytes → (s.mem m).read (a + k) = none →
      ∃ b, exec (.rdp m a) s = .fault (.unwrittenByte m b)) ∧
    (s.busy = true → (∃ r, exec (.rdb m a) s = .refused r) ∧ ∃ r, exec (.rdp m a) s = .refused r)

/-- R62: while BUSY = 1 every host access to SRC or DST is refused, whatever its address. -/
def Obligations.MemoryAccessDuringRunRefused : Prop :=
  ∀ (s : State) (t : Txn) (rest : List Move) (m : PixelMem), s.busy = true → t.space = .pixels m →
    s.script = .host (.bus t) :: rest → ∃ r, step s = .refused r

/-- R52: byte A + k read after a 32-bit write of v at A is v[8k+7:8k]. That BUSY = 0 suffices for both, also in the window whose
accesses R216 leaves undefined, is the model's choice (log 29). -/
def Obligations.ByteReadAfterPixelWrite : Prop :=
  ∀ (s : State) (m : PixelMem) (a k : Nat) (v : Word), s.busy = false → a % 4 = 0 → a + 4 ≤ s.memBytes → k < 4 →
    ∃ t, andThen (exec (.wrp m a v) s) (exec (.rdb m (a + k))) = .next t ∧
      t.readData.toNat = v.toNat / 256 ^ k % 256

/-- R57: no read of any space changes anything but the value returned. -/
def Obligations.ReadsHaveNoSideEffect : Prop :=
  ∀ (s t : State) (i : Instr),
    (i = .rdCtrl ∨ i = .rdStatus ∨ i = .rdWidth ∨ i = .rdHeight ∨ (∃ m a, i = .rdb m a) ∨ ∃ m a, i = .rdp m a) →
    exec i s = .next t → t = { s with readData := t.readData }

/-! ## The datapath operations -/

/-- R120, R131: LUMA of a neighbour, read as a signed number: the exact channel sum divided by 3, less 256 from 128 up. Only
the three colour bytes need have been written; nothing but n[i] changes. That LUMA is an operation with the neighbour's number
as its operand, selected by order 3 and that number, and writes n[i], is the model's choice (log 17): R120 returns a value. -/
def Obligations.LumaOfANeighbour : Prop :=
  (∀ i : Fin 8, decode (.datapath 3 i.val) = .instr (.luma i)) ∧
  ∀ (s : State) (i : Fin 8) (b g r : Byte),
    s.imageBytes ≤ s.memBytes → Interior s.width.toNat s.height.toNat s.x.toNat s.y.toNat →
    let a := pixelAddr s.width.toNat (s.x.toNat + (neighbourOffset i).1).toNat (s.y.toNat + (neighbourOffset i).2).toNat
    s.src.read a = some b → s.src.read (a + 1) = some g → s.src.read (a + 2) = some r →
    ∃ t, exec (.luma i) s = .next t ∧
      (t.n.get i).toInt = (if (b.toNat + g.toNat + r.toNat) / 3 < 128 then
        ((b.toNat + g.toNat + r.toNat) / 3 : Int) else (b.toNat + g.toNat + r.toNat) / 3 - 256) ∧
      (∀ j, j ≠ i → t.n.get j = s.n.get j) ∧ t = { s with n := t.n }

/-- R131: WINDOW, order 2, at an interior pixel: n[i] is LUMA of the pixel at R85's offset, ALPHA the centre's byte 3, and nothing
else changes. -/
def Obligations.WindowSamplesNinePixels : Prop :=
  decode (.datapath 2 0) = .instr .window ∧
  ∀ s : State, s.imageBytes ≤ s.memBytes → Interior s.width.toNat s.height.toNat s.x.toNat s.y.toNat →
    s.PixelWritten s.x.toNat s.y.toNat →
    ∃ t, exec .window s = .next t ∧
      t.n.n0.toInt = s.lumaAt (s.x.toNat - 1) (s.y.toNat - 1) ∧ t.n.n1.toInt = s.lumaAt s.x.toNat (s.y.toNat - 1) ∧
      t.n.n2.toInt = s.lumaAt (s.x.toNat + 1) (s.y.toNat - 1) ∧ t.n.n3.toInt = s.lumaAt (s.x.toNat - 1) s.y.toNat ∧
      t.n.n4.toInt = s.lumaAt (s.x.toNat + 1) s.y.toNat ∧ t.n.n5.toInt = s.lumaAt (s.x.toNat - 1) (s.y.toNat + 1) ∧
      t.n.n6.toInt = s.lumaAt s.x.toNat (s.y.toNat + 1) ∧ t.n.n7.toInt = s.lumaAt (s.x.toNat + 1) (s.y.toNat + 1) ∧
      t.alpha.toNat = s.srcByte s.x.toNat s.y.toNat 3 ∧ t = { s with n := t.n, alpha := t.alpha }

/-- R214: a window one of whose bytes has never been written is a fault, never a value (log 5). -/
def Obligations.WindowOfUnwrittenByteFaults : Prop :=
  ∀ s : State, s.imageBytes ≤ s.memBytes → Interior s.width.toNat s.height.toNat s.x.toNat s.y.toNat →
    ¬ s.PixelWritten s.x.toNat s.y.toNat → ∃ a, exec .window s = .fault (.unwrittenByte .src a)

/-- R53: a neighbour outside the image is a fault, never a value. -/
def Obligations.LumaOutsideImageFaults : Prop :=
  ∀ (s : State) (i : Fin 8),
    ¬ (0 ≤ (s.x.toNat : Int) + (neighbourOffset i).1 ∧ (s.x.toNat : Int) + (neighbourOffset i).1 < s.width.toNat ∧
      0 ≤ (s.y.toNat : Int) + (neighbourOffset i).2 ∧ (s.y.toNat : Int) + (neighbourOffset i).2 < s.height.toNat) →
    exec (.luma i) s =
      .fault (.outsideImage (s.x.toNat + (neighbourOffset i).1) (s.y.toNat + (neighbourOffset i).2))

/-- R133: GX, order 4, is the exact integer (NE + 2E + SE) - (NW + 2W + SW), and nothing else changes. -/
def Obligations.GxIsTheHorizontalGradient : Prop :=
  decode (.datapath 4 0) = .instr .gx ∧
  ∀ s : State, ∃ t, exec .gx s = .next t ∧
    t.gx.toInt = (s.n.n2.toInt + 2 * s.n.n4.toInt + s.n.n7.toInt) - (s.n.n0.toInt + 2 * s.n.n3.toInt + s.n.n5.toInt) ∧
    t = { s with gx := t.gx }

/-- R134: GY, order 5, is the exact integer (SW + 2S + SE) - (NW + 2N + NE), and nothing else changes. -/
def Obligations.GyIsTheVerticalGradient : Prop :=
  decode (.datapath 5 0) = .instr .gy ∧
  ∀ s : State, ∃ t, exec .gy s = .next t ∧
    t.gy.toInt = (s.n.n5.toInt + 2 * s.n.n6.toInt + s.n.n7.toInt) - (s.n.n0.toInt + 2 * s.n.n1.toInt + s.n.n2.toInt) ∧
    t = { s with gy := t.gy }

/-- R150: SQSUM, order 6: SS is the exact integer GX*GX + GY*GY for gradients in the range of R136, and nothing else changes. -/
def Obligations.SqsumIsTheSumOfSquares : Prop :=
  decode (.datapath 6 0) = .instr .sqsum ∧
  ∀ s : State, ∃ t, exec .sqsum s = .next t ∧ t = { s with ss := t.ss } ∧
    (-1020 ≤ s.gx.toInt → s.gx.toInt ≤ 1020 → -1020 ≤ s.gy.toInt → s.gy.toInt ≤ 1020 →
      (t.ss.toNat : Int) = s.gx.toInt * s.gx.toInt + s.gy.toInt * s.gy.toInt)

/-- R153: ROOT, order 7, is the largest integer whose square is at most SS, and nothing else changes. -/
def Obligations.RootIsTheIntegerSquareRoot : Prop :=
  decode (.datapath 7 0) = .instr .root ∧
  ∀ s : State, ∃ t, exec .root s = .next t ∧
    t.root.toNat * t.root.toNat ≤ s.ss.toNat ∧ s.ss.toNat < (t.root.toNat + 1) * (t.root.toNat + 1) ∧
    t = { s with root := t.root }

/-- R157: NARROW, order 8: MAG is ROOT mod 256, not clamped, and nothing else changes. -/
def Obligations.NarrowKeepsTheLowEightBits : Prop :=
  decode (.datapath 8 0) = .instr .narrow ∧
  ∀ s : State, ∃ t, exec .narrow s = .next t ∧ t.mag.toNat = s.root.toNat % 256 ∧ t = { s with mag := t.mag }

/-- R159: PACK, order 9, stores MAG, MAG, MAG, ALPHA at rising addresses from (Y*W + X)*4 of DST, and changes nothing else. -/
def Obligations.PackStoresTheOutputPixel : Prop :=
  decode (.datapath 9 0) = .instr .pack ∧
  ∀ s : State, s.imageBytes ≤ s.memBytes → s.x.toNat < s.width.toNat → s.y.toNat < s.height.toNat →
    let a := (s.y.toNat * s.width.toNat + s.x.toNat) * 4
    ∃ t, exec .pack s = .next t ∧
      t.dst.read a = some s.mag ∧ t.dst.read (a + 1) = some s.mag ∧ t.dst.read (a + 2) = some s.mag ∧
      t.dst.read (a + 3) = some s.alpha ∧ (∀ b, b < a ∨ a + 4 ≤ b → t.dst.read b = s.dst.read b) ∧
      t = { s with dst := t.dst }

/-- R101: ZFILL, order 1, writes zero to DST below W*H*4, and changes nothing else. -/
def Obligations.ZfillClearsTheImageArea : Prop :=
  decode (.datapath 1 0) = .instr .zfill ∧
  ∀ s : State, s.width.toNat * s.height.toNat * 4 ≤ s.memBytes →
    ∃ t, exec .zfill s = .next t ∧ (∀ a, a < s.width.toNat * s.height.toNat * 4 → t.dst.read a = some 0) ∧
      (∀ a, s.width.toNat * s.height.toNat * 4 ≤ a → t.dst.read a = s.dst.read a) ∧ t = { s with dst := t.dst }

/-! ## APPLY -/

/-- R100: APPLY, order 0, on an image that fits and whose needed bytes have been written: the image area of DST is the block of
R100, byte for byte; nothing else changes but the engine's working state; the engine's next step in the run is completion. -/
def Obligations.ApplyComputesTheFilteredImage : Prop :=
  decode (.datapath 0 0) = .instr .apply ∧
  ∀ s : State, s.imageBytes ≤ s.memBytes → s.SourceWritten →
    ∃ t, exec .apply s = .next t ∧ s.FilteredInto t.dst ∧ t.src = s.src ∧ t.width = s.width ∧ t.height = s.height ∧
      t.busy = s.busy ∧ t.done = s.done ∧ t.err = s.err ∧ t.memPixels = s.memPixels ∧ t.readData = s.readData ∧
      t.script = s.script ∧ t.draws = s.draws ∧
      (s.busy = true → ∃ u, engineTurn t = .next u ∧ u.busy = false ∧ u.done = true ∧ u.dst = t.dst)

/-- R107: after APPLY every pixel that is not interior is four zero bytes, alpha included. -/
def Obligations.BorderIsTransparentBlack : Prop :=
  ∀ s t : State, exec .apply s = .next t →
    ∀ x y k, x < s.width.toNat → y < s.height.toNat → k < 4 →
      (x = 0 ∨ x + 1 = s.width.toNat ∨ y = 0 ∨ y + 1 = s.height.toNat) →
      t.dst.read ((y * s.width.toNat + x) * 4 + k) = some 0

/-- R108: with W ≤ 2 or H ≤ 2 a START gives a legal run whose result is all zero; no byte of SRC need have been written.
That ZFILL and completion are the run's two engine steps is the model's granularity (log 17, log 10): R222 gives no count. -/
def Obligations.SmallImageIsAllZero : Prop :=
  ∀ s : State, s.busy = false → (s.width.toNat ≤ 2 ∨ s.height.toNat ≤ 2) → s.imageBytes ≤ s.memBytes →
    s.script = [.host (.bus ⟨.reg, .write, 4, 0x00, 1⟩)] →
    ∃ t, runSteps 3 s = .next t ∧ t.statusWord = 2 ∧ (∀ a, a < s.imageBytes → t.dst.read a = some 0) ∧
      (∀ a, s.imageBytes ≤ a → t.dst.read a = s.dst.read a) ∧ t.src = s.src ∧ t.width = s.width ∧ t.height = s.height

/-- R109: with W = 0 or H = 0 a START gives a legal run that writes no byte, for every MEM_BYTES.
That the run takes two engine steps is the model's granularity (log 17, log 10): R222 gives no count. -/
def Obligations.EmptyImageTouchesNothing : Prop :=
  ∀ s : State, s.busy = false → (s.width = 0 ∨ s.height = 0) →
    s.script = [.host (.bus ⟨.reg, .write, 4, 0x00, 1⟩)] →
    ∃ t, runSteps 3 s = .next t ∧ t.statusWord = 2 ∧ t.dst = s.dst ∧ t.src = s.src ∧ t.width = s.width ∧
      t.height = s.height

/-- R110: APPLY is pure: equal sizes and equal image bytes of SRC give equal image bytes of DST, whatever else differs,
and SRC, WIDTH and HEIGHT are unchanged. -/
def Obligations.ApplyIsPure : Prop :=
  ∀ s₁ s₂ t₁ t₂ : State, s₁.width = s₂.width → s₁.height = s₂.height →
    (∀ a, a < s₁.imageBytes → s₁.src.read a = s₂.src.read a) →
    exec .apply s₁ = .next t₁ → exec .apply s₂ = .next t₂ →
    (∀ a, a < s₁.imageBytes → t₁.dst.read a = t₂.dst.read a) ∧
      t₁.src = s₁.src ∧ t₁.width = s₁.width ∧ t₁.height = s₁.height

/-- R112: an interior output pixel depends only on the colour of its eight neighbours and its own alpha: not on the height,
and on the width only through addressing. -/
def Obligations.OutputPixelIsLocal : Prop :=
  ∀ (s₁ s₂ t₁ t₂ : State) (x y : Nat),
    Interior s₁.width.toNat s₁.height.toNat x y → Interior s₂.width.toNat s₂.height.toNat x y →
    (∀ i : Fin 8, ∀ k < 3,
      let u := (x + (neighbourOffset i).1).toNat
      let v := (y + (neighbourOffset i).2).toNat
      s₁.src.read (pixelAddr s₁.width.toNat u v + k) = s₂.src.read (pixelAddr s₂.width.toNat u v + k)) →
    s₁.src.read (pixelAddr s₁.width.toNat x y + 3) = s₂.src.read (pixelAddr s₂.width.toNat x y + 3) →
    exec .apply s₁ = .next t₁ → exec .apply s₂ = .next t₂ →
    SamePixel t₁.dst s₁.width.toNat x y t₂.dst s₂.width.toNat x y

/-- R106: the order in which interior pixels are produced cannot be seen in DST. -/
def Obligations.PixelOrderIsNotObservable : Prop :=
  ∀ (ps qs : List (Nat × Nat)) (s t : State), ps.Perm qs →
    (∀ p ∈ ps, Interior s.width.toNat s.height.toNat p.1 p.2) → producePixels ps s = .next t →
    ∃ u, producePixels qs s = .next u ∧ ∀ a, u.dst.read a = t.dst.read a

/-- R106, D24: the engine's run, one operation a step, reaches in exactly 1 + 7*(W-2)*(H-2) steps the state (or the fault)
that APPLY taken as one step gives. One operation a step, and so the count, is the model's choice (log 17). -/
def Obligations.EngineRunRefinesApply : Prop :=
  ∀ s : State, s.busy = true → s.phase = .zfill → s.script = [] →
    runSteps (1 + 7 * ((s.width.toNat - 2) * (s.height.toNat - 2))) s = exec .apply s

/-- R111: from anywhere in a run whose needed bytes have been written, the run ends, within 2 + 7*(W-2)*(H-2) engine steps,
with DONE and without error. R111 gives no step count: the bound rests on the model's granularity (log 17). -/
def Obligations.EveryRunEnds : Prop :=
  ∀ s : State, s.Inv → s.busy = true → s.SourceWritten → s.script = [] →
    ∃ k t, k ≤ 2 + 7 * ((s.width.toNat - 2) * (s.height.toNat - 2)) ∧ runSteps k s = .next t ∧ t.statusWord = 2

/-- R215, R221: what the block owes the host. A START of an image that fits and whose needed bytes have been written ends
with STATUS = 2, the filtered image in DST, and DST above it, SRC, WIDTH and HEIGHT as they were. The count of steps is the
model's granularity (log 17). -/
def Obligations.RunDeliversTheFilteredImage : Prop :=
  ∀ s : State, s.busy = false → s.imageBytes ≤ s.memBytes → s.SourceWritten →
    s.script = [.host (.bus ⟨.reg, .write, 4, 0x00, 1⟩)] →
    ∃ t, runSteps (3 + 7 * ((s.width.toNat - 2) * (s.height.toNat - 2))) s = .next t ∧ t.statusWord = 2 ∧
      s.FilteredInto t.dst ∧ t.src = s.src ∧ t.width = s.width ∧ t.height = s.height

/-! ## Rules of the whole machine -/

/-- The invariant of Safety.lean (R24, R27, R31 to R33, R87, R131 to R157) is kept by every step. -/
def Obligations.EveryStepKeepsTheInvariant : Prop :=
  ∀ s t : State, s.Inv → step s = .next t → t.Inv

/-- The invariant holds after a power-up reset of every capacity, and so at `State.reset`. -/
def Obligations.ResetMeetsTheInvariant : Prop :=
  (∀ n : Nat, (State.powerUp n).Inv) ∧ State.reset.Inv

/-- R53, R190: in a run whose needed bytes have been written the engine's step cannot fail. -/
def Obligations.EngineNeverFails : Prop :=
  ∀ s : State, s.Inv → s.busy = true → s.SourceWritten → s.script = [] → ∃ t, step s = .next t

/-- R60: during a run the contents of SRC do not change. -/
def Obligations.RunNeverWritesSrc : Prop :=
  ∀ s t : State, s.busy = true → step s = .next t → t.src = s.src

/-- R32, R219: during a run no byte of DST at or above W*H*4 changes. -/
def Obligations.RunWritesOnlyTheImageArea : Prop :=
  ∀ s t : State, s.busy = true → step s = .next t → ∀ a, s.imageBytes ≤ a → t.dst.read a = s.dst.read a

/-- R171, R194: a run is left only by its completion, which sets DONE, or by reset. -/
def Obligations.RunEndsOnlyByCompletionOrReset : Prop :=
  ∀ s t : State, s.busy = true → step s = .next t → t.busy = false →
    (s.phase = .complete ∧ t.done = true) ∨ ∃ rest, s.script = .host .reset :: rest

/-- R24, R197, R218: while idle, DONE and ERR change only by a START or a reset. -/
def Obligations.ResultFlagsStayUntilStartOrReset : Prop :=
  ∀ s t : State, s.busy = false → step s = .next t → (t.done ≠ s.done ∨ t.err ≠ s.err) →
    ∃ h rest, s.script = .host h :: rest ∧
      (h = .reset ∨ ∃ v, decode (.host h) = .instr (.wrCtrl v) ∧ v.getLsbD 0 = true)

/-- R5, R20: no step changes the capacity of the memories. -/
def Obligations.CapacityIsFixed : Prop :=
  ∀ s t : State, step s = .next t → t.memPixels = s.memPixels

/-! ## Arithmetic of the filter -/

/-- R136, R138 (d), R151: each gradient is in -1020 to 1020, the two have the same parity, and no window gives a sum of
squares above 1 300 500, which one window reaches. -/
def Obligations.GradientBounds : Prop :=
  (∀ n : Window, -1020 ≤ gradX n ∧ gradX n ≤ 1020 ∧ -1020 ≤ gradY n ∧ gradY n ≤ 1020 ∧
    (gradX n + gradY n) % 2 = 0 ∧ gradX n * gradX n + gradY n * gradY n ≤ 1300500) ∧
  ∃ n : Window, gradX n * gradX n + gradY n * gradY n = 1300500

/-- R85: the address of a neighbour is the centre's plus (dy*W + dx)*4. -/
def Obligations.NeighbourAddressOffsets : Prop :=
  ∀ (w h x y : Nat) (i : Fin 8), Interior w h x y →
    (pixelAddr w (x + (neighbourOffset i).1).toNat (y + (neighbourOffset i).2).toNat : Int) =
        pixelAddr w x y + ((neighbourOffset i).2 * w + (neighbourOffset i).1) * 4 ∧
      pixelAddr w (x + (neighbourOffset i).1).toNat (y + (neighbourOffset i).2).toNat + 4 ≤ w * h * 4

/-- R138 (c): APPLY of the image mirrored left to right, or top to bottom, or transposed, leaves in DST the output mirrored
or transposed the same way, colour and alpha, border and interior. -/
def Obligations.MirroredImageMirrorsTheOutput : Prop :=
  ∀ s r t u : State, exec .apply s = .next t → exec .apply r = .next u →
    let w := s.width.toNat
    let h := s.height.toNat
    (r.width = s.width → r.height = s.height →
      (∀ x y, x < w → y < h → SamePixel r.src w x y s.src w (w - 1 - x) y) →
      ∀ x y, x < w → y < h → SamePixel u.dst w x y t.dst w (w - 1 - x) y) ∧
    (r.width = s.width → r.height = s.height →
      (∀ x y, x < w → y < h → SamePixel r.src w x y s.src w x (h - 1 - y)) →
      ∀ x y, x < w → y < h → SamePixel u.dst w x y t.dst w x (h - 1 - y)) ∧
    (r.width = s.height → r.height = s.width →
      (∀ x y, x < h → y < w → SamePixel r.src h x y s.src w y x) →
      ∀ x y, x < h → y < w → SamePixel u.dst h x y t.dst w y x)

/-- R158: the narrowing keeps every root up to 255 in both modes, and the modes differ only above it. -/
def Obligations.NarrowingIsIdentityBelow256 : Prop :=
  ∀ (mode : NarrowMode) (r : Nat), r ≤ 255 → (narrowTo8 mode r).toNat = r
end

