-- ==== Sys2Proof/Laws/Flags.lean ====
section
/-! SUPPORT. STATUS as a read returns it (spec/44_host_commands.md R176). -/

namespace Sys2Proof.Machine

/-- STATUS is the word of its three bits. -/
theorem State.statusWord_eq (s : State) : s.statusWord =
    BitVec.ofNat 32 (s.busy.toNat + 2 * s.done.toNat + 4 * s.err.toNat) := by
  unfold State.statusWord
  cases s.busy <;> cases s.done <;> cases s.err <;> rfl

@[simp] theorem State.statusWord_bit0 (s : State) : s.statusWord.getLsbD 0 = s.busy := by
  rw [State.statusWord_eq]
  cases s.busy <;> cases s.done <;> cases s.err <;> rfl

@[simp] theorem State.statusWord_bit1 (s : State) : s.statusWord.getLsbD 1 = s.done := by
  rw [State.statusWord_eq]
  cases s.busy <;> cases s.done <;> cases s.err <;> rfl

@[simp] theorem State.statusWord_bit2 (s : State) : s.statusWord.getLsbD 2 = s.err := by
  rw [State.statusWord_eq]
  cases s.busy <;> cases s.done <;> cases s.err <;> rfl

end Sys2Proof.Machine
end

