-- ==== Sys2Proof/Laws/Memory.lean ====
section
/-! SUPPORT. The laws of a pixel memory: what a read gives after each operation, and that each keeps the canonical form. -/

namespace Sys2Proof.Machine

@[simp] theorem Memory.read_nil (a : Nat) : Memory.read [] a = none := rfl

theorem Memory.read_cons (c : Host.Cell) (m : Memory) (a : Nat) :
    Memory.read (c :: m) a = if c.1 = a then some c.2 else m.read a := rfl

/-- A read after a write: the byte written at its address, the old byte elsewhere. -/
theorem Memory.read_write (m : Memory) (a b : Nat) (v : Byte) :
    (m.write a v).read b = if b = a then some v else m.read b := by
  by_cases hb : b = a
  · subst hb
    rw [if_pos rfl]
    induction m with
    | nil => simp [Memory.write, Memory.read_cons]
    | cons c m ih =>
      simp only [Memory.write]
      split
      · simp [Memory.read_cons]
      · split
        · simp [Memory.read_cons]
        · rename_i _ h
          rw [Memory.read_cons, if_neg (Ne.symm h), ih]
  · have hb' : ¬ a = b := Ne.symm hb
    rw [if_neg hb]
    induction m with
    | nil => simp [Memory.write, Memory.read_cons, hb']
    | cons c m ih =>
      simp only [Memory.write]
      split
      · simp [Memory.read_cons, hb']
      · split
        · rename_i _ h
          simp [Memory.read_cons, hb', ← h]
        · rw [Memory.read_cons, Memory.read_cons, ih]

@[simp] theorem Memory.read_write_same (m : Memory) (a : Nat) (v : Byte) : (m.write a v).read a = some v := by
  simp [Memory.read_write]

theorem Memory.read_write_other (m : Memory) {a b : Nat} (v : Byte) (h : b ≠ a) :
    (m.write a v).read b = m.read b := by simp [Memory.read_write, h]

theorem Memory.mem_write (m : Memory) (a : Nat) (v : Byte) (c : Host.Cell) (h : c ∈ m.write a v) :
    c = (a, v) ∨ c ∈ m := by
  induction m with
  | nil => simpa [Memory.write] using h
  | cons d m ih =>
    simp only [Memory.write] at h
    split at h
    · simpa using h
    · split at h
      · rcases List.mem_cons.mp h with h | h
        · exact .inl h
        · exact .inr (List.mem_cons_of_mem _ h)
      · rcases List.mem_cons.mp h with h | h
        · exact .inr (h ▸ List.mem_cons_self)
        · exact (ih h).imp_right (List.mem_cons_of_mem _)

/-- A write keeps the canonical form. -/
theorem Memory.wf_write (m : Memory) (a : Nat) (v : Byte) (h : m.wf) : (m.write a v).wf := by
  induction m with
  | nil => simp [Memory.write]
  | cons d m ih =>
    obtain ⟨hd, hm⟩ := List.pairwise_cons.mp h
    simp only [Memory.write]
    split
    · rename_i hlt
      refine List.pairwise_cons.mpr ⟨fun c hc => ?_, h⟩
      rcases List.mem_cons.mp hc with rfl | hc
      · exact hlt
      · exact lt_trans hlt (hd c hc)
    · split
      · rename_i _ heq
        exact List.pairwise_cons.mpr ⟨fun c hc => by have := hd c hc; simp only [heq]; exact this, hm⟩
      · rename_i h1 h2
        refine List.pairwise_cons.mpr ⟨fun c hc => ?_, ih hm⟩
        rcases Memory.mem_write m a v c hc with rfl | hc
        · show d.1 < a
          omega
        · exact hd c hc

theorem Memory.read_append (m m' : Memory) (a : Nat) :
    Memory.read (m ++ m') a = (m.read a).or (m'.read a) := by
  induction m with
  | nil => rfl
  | cons c m ih =>
    show (if c.1 = a then some c.2 else Memory.read (m ++ m') a) = _
    rw [ih, Memory.read_cons]
    split <;> rfl

theorem Memory.read_filter_ge (m : Memory) (k a : Nat) :
    Memory.read (m.filter fun c => k ≤ c.1) a = if k ≤ a then m.read a else none := by
  induction m with
  | nil => simp
  | cons c m ih =>
    by_cases hc : k ≤ c.1
    · rw [List.filter_cons_of_pos (by simpa using hc), Memory.read_cons, Memory.read_cons, ih]
      split <;> split <;> first | rfl | omega
    · rw [List.filter_cons_of_neg (by simpa using hc), Memory.read_cons, ih]
      by_cases hk : k ≤ a
      · have : ¬ c.1 = a := by omega
        simp [hk, this]
      · simp [hk]

theorem Memory.read_map_range (k a : Nat) (f : Nat → Byte) :
    Memory.read ((List.range k).map fun b => (b, f b)) a = if a < k then some (f a) else none := by
  induction k with
  | zero => simp
  | succ k ih =>
    rw [List.range_succ, List.map_append, Memory.read_append, ih]
    simp only [List.map_cons, List.map_nil, Memory.read_cons, Memory.read_nil]
    rcases Nat.lt_trichotomy a k with h | h | h
    · simp [h, Nat.lt_succ_of_lt h]
    · simp [h]
    · have h1 : ¬ a < k := by omega
      have h2 : ¬ a < k + 1 := by omega
      have h3 : ¬ k = a := by omega
      simp [h1, h2, h3]

/-- A read after the addresses below `k` have been given the bytes `f` names. -/
theorem Memory.read_setPrefix (m : Memory) (k a : Nat) (f : Nat → Byte) :
    (m.setPrefix k f).read a = if a < k then some (f a) else m.read a := by
  rw [Memory.setPrefix, Memory.read_append, Memory.read_map_range, Memory.read_filter_ge]
  by_cases h : a < k
  · simp [h]
  · simp [h, Nat.not_lt.mp h]

theorem Memory.mem_setPrefix (m : Memory) (k : Nat) (f : Nat → Byte) (c : Host.Cell) (h : c ∈ m.setPrefix k f) :
    c.1 < k ∨ (k ≤ c.1 ∧ c ∈ m) := by
  rcases List.mem_append.mp h with h | h
  · obtain ⟨a, ha, rfl⟩ := List.mem_map.mp h
    exact .inl (List.mem_range.mp ha)
  · obtain ⟨hm, hk⟩ := List.mem_filter.mp h
    exact .inr ⟨by simpa using hk, hm⟩

/-- Setting a prefix keeps the canonical form. -/
theorem Memory.wf_setPrefix (m : Memory) (k : Nat) (f : Nat → Byte) (h : m.wf) : (m.setPrefix k f).wf := by
  refine List.pairwise_append.mpr ⟨?_, h.filter _, fun c hc d hd => ?_⟩
  · exact List.pairwise_map.mpr (List.pairwise_lt_range)
  · obtain ⟨a, ha, rfl⟩ := List.mem_map.mp hc
    have hk := (List.mem_filter.mp hd).2
    have := List.mem_range.mp ha
    have hk : k ≤ d.1 := by simpa using hk
    show a < d.1
    omega

/-- Setting an empty prefix changes nothing. -/
theorem Memory.setPrefix_zero (m : Memory) (f : Nat → Byte) : m.setPrefix 0 f = m := by
  simp [Memory.setPrefix]

/-- A read after a 32-bit write: its four bytes, and the old byte elsewhere. -/
theorem Memory.read_writeWord (m : Memory) (a b : Nat) (v : Word) :
    (m.writeWord a v).read b = if a ≤ b ∧ b < a + 4 then some (byteOfWord v (b - a)) else m.read b := by
  simp only [Memory.writeWord, Memory.read_write]
  by_cases h3 : b = a + 3
  · subst h3; simp
  by_cases h2 : b = a + 2
  · subst h2; simp
  by_cases h1 : b = a + 1
  · subst h1; simp
  by_cases h0 : b = a
  · subst h0; simp
  · have : ¬ (a ≤ b ∧ b < a + 4) := by omega
    simp [h0, h1, h2, h3, this]

/-- A 32-bit write keeps the canonical form. -/
theorem Memory.wf_writeWord (m : Memory) (a : Nat) (v : Word) (h : m.wf) : (m.writeWord a v).wf :=
  Memory.wf_write _ _ _ (Memory.wf_write _ _ _ (Memory.wf_write _ _ _ (Memory.wf_write _ _ _ h)))

theorem Memory.mem_writeWord (m : Memory) (a : Nat) (v : Word) (c : Host.Cell) (h : c ∈ m.writeWord a v) :
    (a ≤ c.1 ∧ c.1 < a + 4) ∨ c ∈ m := by
  rcases Memory.mem_write _ _ _ _ h with rfl | h
  · left; dsimp only; omega
  rcases Memory.mem_write _ _ _ _ h with rfl | h
  · left; dsimp only; omega
  rcases Memory.mem_write _ _ _ _ h with rfl | h
  · left; dsimp only; omega
  rcases Memory.mem_write _ _ _ _ h with rfl | h
  · left; dsimp only; omega
  · exact .inr h

/-- The memories after a power-up reset are in canonical form. -/
theorem State.powerUp_wf (n : Nat) : (State.powerUp n).src.wf ∧ (State.powerUp n).dst.wf :=
  ⟨.nil, .nil⟩

end Sys2Proof.Machine
end

