-- ==== Sys2Proof/Laws/State.lean ====
section
/-! SUPPORT. What each named update of the state does to each field: true by rfl, so that no proof unfolds an update. -/

namespace Sys2Proof.Machine

variable (s : State)

@[simp] theorem State.answer_memPixels (v : Word) : (s.answer v).memPixels = s.memPixels := rfl
@[simp] theorem State.answer_width (v : Word) : (s.answer v).width = s.width := rfl
@[simp] theorem State.answer_height (v : Word) : (s.answer v).height = s.height := rfl
@[simp] theorem State.answer_busy (v : Word) : (s.answer v).busy = s.busy := rfl
@[simp] theorem State.answer_done (v : Word) : (s.answer v).done = s.done := rfl
@[simp] theorem State.answer_err (v : Word) : (s.answer v).err = s.err := rfl
@[simp] theorem State.answer_src (v : Word) : (s.answer v).src = s.src := rfl
@[simp] theorem State.answer_dst (v : Word) : (s.answer v).dst = s.dst := rfl
@[simp] theorem State.answer_x (v : Word) : (s.answer v).x = s.x := rfl
@[simp] theorem State.answer_y (v : Word) : (s.answer v).y = s.y := rfl
@[simp] theorem State.answer_n (v : Word) : (s.answer v).n = s.n := rfl
@[simp] theorem State.answer_alpha (v : Word) : (s.answer v).alpha = s.alpha := rfl
@[simp] theorem State.answer_gx (v : Word) : (s.answer v).gx = s.gx := rfl
@[simp] theorem State.answer_gy (v : Word) : (s.answer v).gy = s.gy := rfl
@[simp] theorem State.answer_ss (v : Word) : (s.answer v).ss = s.ss := rfl
@[simp] theorem State.answer_root (v : Word) : (s.answer v).root = s.root := rfl
@[simp] theorem State.answer_mag (v : Word) : (s.answer v).mag = s.mag := rfl
@[simp] theorem State.answer_phase (v : Word) : (s.answer v).phase = s.phase := rfl
@[simp] theorem State.answer_readData (v : Word) : (s.answer v).readData = v := rfl
@[simp] theorem State.answer_script (v : Word) : (s.answer v).script = s.script := rfl
@[simp] theorem State.answer_draws (v : Word) : (s.answer v).draws = s.draws := rfl

@[simp] theorem State.clearResult_memPixels : (s.clearResult).memPixels = s.memPixels := rfl
@[simp] theorem State.clearResult_width : (s.clearResult).width = s.width := rfl
@[simp] theorem State.clearResult_height : (s.clearResult).height = s.height := rfl
@[simp] theorem State.clearResult_busy : (s.clearResult).busy = s.busy := rfl
@[simp] theorem State.clearResult_done : (s.clearResult).done = false := rfl
@[simp] theorem State.clearResult_err : (s.clearResult).err = false := rfl
@[simp] theorem State.clearResult_src : (s.clearResult).src = s.src := rfl
@[simp] theorem State.clearResult_dst : (s.clearResult).dst = s.dst := rfl
@[simp] theorem State.clearResult_x : (s.clearResult).x = s.x := rfl
@[simp] theorem State.clearResult_y : (s.clearResult).y = s.y := rfl
@[simp] theorem State.clearResult_n : (s.clearResult).n = s.n := rfl
@[simp] theorem State.clearResult_alpha : (s.clearResult).alpha = s.alpha := rfl
@[simp] theorem State.clearResult_gx : (s.clearResult).gx = s.gx := rfl
@[simp] theorem State.clearResult_gy : (s.clearResult).gy = s.gy := rfl
@[simp] theorem State.clearResult_ss : (s.clearResult).ss = s.ss := rfl
@[simp] theorem State.clearResult_root : (s.clearResult).root = s.root := rfl
@[simp] theorem State.clearResult_mag : (s.clearResult).mag = s.mag := rfl
@[simp] theorem State.clearResult_phase : (s.clearResult).phase = s.phase := rfl
@[simp] theorem State.clearResult_readData : (s.clearResult).readData = s.readData := rfl
@[simp] theorem State.clearResult_script : (s.clearResult).script = s.script := rfl
@[simp] theorem State.clearResult_draws : (s.clearResult).draws = s.draws := rfl

@[simp] theorem State.beginRun_memPixels : (s.beginRun).memPixels = s.memPixels := rfl
@[simp] theorem State.beginRun_width : (s.beginRun).width = s.width := rfl
@[simp] theorem State.beginRun_height : (s.beginRun).height = s.height := rfl
@[simp] theorem State.beginRun_busy : (s.beginRun).busy = true := rfl
@[simp] theorem State.beginRun_done : (s.beginRun).done = s.done := rfl
@[simp] theorem State.beginRun_err : (s.beginRun).err = s.err := rfl
@[simp] theorem State.beginRun_src : (s.beginRun).src = s.src := rfl
@[simp] theorem State.beginRun_dst : (s.beginRun).dst = s.dst := rfl
@[simp] theorem State.beginRun_x : (s.beginRun).x = s.x := rfl
@[simp] theorem State.beginRun_y : (s.beginRun).y = s.y := rfl
@[simp] theorem State.beginRun_n : (s.beginRun).n = s.n := rfl
@[simp] theorem State.beginRun_alpha : (s.beginRun).alpha = s.alpha := rfl
@[simp] theorem State.beginRun_gx : (s.beginRun).gx = s.gx := rfl
@[simp] theorem State.beginRun_gy : (s.beginRun).gy = s.gy := rfl
@[simp] theorem State.beginRun_ss : (s.beginRun).ss = s.ss := rfl
@[simp] theorem State.beginRun_root : (s.beginRun).root = s.root := rfl
@[simp] theorem State.beginRun_mag : (s.beginRun).mag = s.mag := rfl
@[simp] theorem State.beginRun_phase : (s.beginRun).phase = .zfill := rfl
@[simp] theorem State.beginRun_readData : (s.beginRun).readData = s.readData := rfl
@[simp] theorem State.beginRun_script : (s.beginRun).script = s.script := rfl
@[simp] theorem State.beginRun_draws : (s.beginRun).draws = s.draws := rfl

@[simp] theorem State.endRun_memPixels : (s.endRun).memPixels = s.memPixels := rfl
@[simp] theorem State.endRun_width : (s.endRun).width = s.width := rfl
@[simp] theorem State.endRun_height : (s.endRun).height = s.height := rfl
@[simp] theorem State.endRun_busy : (s.endRun).busy = false := rfl
@[simp] theorem State.endRun_done : (s.endRun).done = true := rfl
@[simp] theorem State.endRun_err : (s.endRun).err = s.err := rfl
@[simp] theorem State.endRun_src : (s.endRun).src = s.src := rfl
@[simp] theorem State.endRun_dst : (s.endRun).dst = s.dst := rfl
@[simp] theorem State.endRun_x : (s.endRun).x = s.x := rfl
@[simp] theorem State.endRun_y : (s.endRun).y = s.y := rfl
@[simp] theorem State.endRun_n : (s.endRun).n = s.n := rfl
@[simp] theorem State.endRun_alpha : (s.endRun).alpha = s.alpha := rfl
@[simp] theorem State.endRun_gx : (s.endRun).gx = s.gx := rfl
@[simp] theorem State.endRun_gy : (s.endRun).gy = s.gy := rfl
@[simp] theorem State.endRun_ss : (s.endRun).ss = s.ss := rfl
@[simp] theorem State.endRun_root : (s.endRun).root = s.root := rfl
@[simp] theorem State.endRun_mag : (s.endRun).mag = s.mag := rfl
@[simp] theorem State.endRun_phase : (s.endRun).phase = .zfill := rfl
@[simp] theorem State.endRun_readData : (s.endRun).readData = s.readData := rfl
@[simp] theorem State.endRun_script : (s.endRun).script = s.script := rfl
@[simp] theorem State.endRun_draws : (s.endRun).draws = s.draws := rfl

@[simp] theorem State.raiseRange_memPixels : (s.raiseRange).memPixels = s.memPixels := rfl
@[simp] theorem State.raiseRange_width : (s.raiseRange).width = s.width := rfl
@[simp] theorem State.raiseRange_height : (s.raiseRange).height = s.height := rfl
@[simp] theorem State.raiseRange_busy : (s.raiseRange).busy = s.busy := rfl
@[simp] theorem State.raiseRange_done : (s.raiseRange).done = true := rfl
@[simp] theorem State.raiseRange_err : (s.raiseRange).err = true := rfl
@[simp] theorem State.raiseRange_src : (s.raiseRange).src = s.src := rfl
@[simp] theorem State.raiseRange_dst : (s.raiseRange).dst = s.dst := rfl
@[simp] theorem State.raiseRange_x : (s.raiseRange).x = s.x := rfl
@[simp] theorem State.raiseRange_y : (s.raiseRange).y = s.y := rfl
@[simp] theorem State.raiseRange_n : (s.raiseRange).n = s.n := rfl
@[simp] theorem State.raiseRange_alpha : (s.raiseRange).alpha = s.alpha := rfl
@[simp] theorem State.raiseRange_gx : (s.raiseRange).gx = s.gx := rfl
@[simp] theorem State.raiseRange_gy : (s.raiseRange).gy = s.gy := rfl
@[simp] theorem State.raiseRange_ss : (s.raiseRange).ss = s.ss := rfl
@[simp] theorem State.raiseRange_root : (s.raiseRange).root = s.root := rfl
@[simp] theorem State.raiseRange_mag : (s.raiseRange).mag = s.mag := rfl
@[simp] theorem State.raiseRange_phase : (s.raiseRange).phase = s.phase := rfl
@[simp] theorem State.raiseRange_readData : (s.raiseRange).readData = s.readData := rfl
@[simp] theorem State.raiseRange_script : (s.raiseRange).script = s.script := rfl
@[simp] theorem State.raiseRange_draws : (s.raiseRange).draws = s.draws := rfl

@[simp] theorem State.computeGx_memPixels : (s.computeGx).memPixels = s.memPixels := rfl
@[simp] theorem State.computeGx_width : (s.computeGx).width = s.width := rfl
@[simp] theorem State.computeGx_height : (s.computeGx).height = s.height := rfl
@[simp] theorem State.computeGx_busy : (s.computeGx).busy = s.busy := rfl
@[simp] theorem State.computeGx_done : (s.computeGx).done = s.done := rfl
@[simp] theorem State.computeGx_err : (s.computeGx).err = s.err := rfl
@[simp] theorem State.computeGx_src : (s.computeGx).src = s.src := rfl
@[simp] theorem State.computeGx_dst : (s.computeGx).dst = s.dst := rfl
@[simp] theorem State.computeGx_x : (s.computeGx).x = s.x := rfl
@[simp] theorem State.computeGx_y : (s.computeGx).y = s.y := rfl
@[simp] theorem State.computeGx_n : (s.computeGx).n = s.n := rfl
@[simp] theorem State.computeGx_alpha : (s.computeGx).alpha = s.alpha := rfl
@[simp] theorem State.computeGx_gx : (s.computeGx).gx = BitVec.ofInt 11 (gradX s.n) := rfl
@[simp] theorem State.computeGx_gy : (s.computeGx).gy = s.gy := rfl
@[simp] theorem State.computeGx_ss : (s.computeGx).ss = s.ss := rfl
@[simp] theorem State.computeGx_root : (s.computeGx).root = s.root := rfl
@[simp] theorem State.computeGx_mag : (s.computeGx).mag = s.mag := rfl
@[simp] theorem State.computeGx_phase : (s.computeGx).phase = s.phase := rfl
@[simp] theorem State.computeGx_readData : (s.computeGx).readData = s.readData := rfl
@[simp] theorem State.computeGx_script : (s.computeGx).script = s.script := rfl
@[simp] theorem State.computeGx_draws : (s.computeGx).draws = s.draws := rfl

@[simp] theorem State.computeGy_memPixels : (s.computeGy).memPixels = s.memPixels := rfl
@[simp] theorem State.computeGy_width : (s.computeGy).width = s.width := rfl
@[simp] theorem State.computeGy_height : (s.computeGy).height = s.height := rfl
@[simp] theorem State.computeGy_busy : (s.computeGy).busy = s.busy := rfl
@[simp] theorem State.computeGy_done : (s.computeGy).done = s.done := rfl
@[simp] theorem State.computeGy_err : (s.computeGy).err = s.err := rfl
@[simp] theorem State.computeGy_src : (s.computeGy).src = s.src := rfl
@[simp] theorem State.computeGy_dst : (s.computeGy).dst = s.dst := rfl
@[simp] theorem State.computeGy_x : (s.computeGy).x = s.x := rfl
@[simp] theorem State.computeGy_y : (s.computeGy).y = s.y := rfl
@[simp] theorem State.computeGy_n : (s.computeGy).n = s.n := rfl
@[simp] theorem State.computeGy_alpha : (s.computeGy).alpha = s.alpha := rfl
@[simp] theorem State.computeGy_gx : (s.computeGy).gx = s.gx := rfl
@[simp] theorem State.computeGy_gy : (s.computeGy).gy = BitVec.ofInt 11 (gradY s.n) := rfl
@[simp] theorem State.computeGy_ss : (s.computeGy).ss = s.ss := rfl
@[simp] theorem State.computeGy_root : (s.computeGy).root = s.root := rfl
@[simp] theorem State.computeGy_mag : (s.computeGy).mag = s.mag := rfl
@[simp] theorem State.computeGy_phase : (s.computeGy).phase = s.phase := rfl
@[simp] theorem State.computeGy_readData : (s.computeGy).readData = s.readData := rfl
@[simp] theorem State.computeGy_script : (s.computeGy).script = s.script := rfl
@[simp] theorem State.computeGy_draws : (s.computeGy).draws = s.draws := rfl

@[simp] theorem State.computeSs_memPixels : (s.computeSs).memPixels = s.memPixels := rfl
@[simp] theorem State.computeSs_width : (s.computeSs).width = s.width := rfl
@[simp] theorem State.computeSs_height : (s.computeSs).height = s.height := rfl
@[simp] theorem State.computeSs_busy : (s.computeSs).busy = s.busy := rfl
@[simp] theorem State.computeSs_done : (s.computeSs).done = s.done := rfl
@[simp] theorem State.computeSs_err : (s.computeSs).err = s.err := rfl
@[simp] theorem State.computeSs_src : (s.computeSs).src = s.src := rfl
@[simp] theorem State.computeSs_dst : (s.computeSs).dst = s.dst := rfl
@[simp] theorem State.computeSs_x : (s.computeSs).x = s.x := rfl
@[simp] theorem State.computeSs_y : (s.computeSs).y = s.y := rfl
@[simp] theorem State.computeSs_n : (s.computeSs).n = s.n := rfl
@[simp] theorem State.computeSs_alpha : (s.computeSs).alpha = s.alpha := rfl
@[simp] theorem State.computeSs_gx : (s.computeSs).gx = s.gx := rfl
@[simp] theorem State.computeSs_gy : (s.computeSs).gy = s.gy := rfl
@[simp] theorem State.computeSs_ss : (s.computeSs).ss = BitVec.ofInt 21 (s.gx.toInt * s.gx.toInt + s.gy.toInt * s.gy.toInt) := rfl
@[simp] theorem State.computeSs_root : (s.computeSs).root = s.root := rfl
@[simp] theorem State.computeSs_mag : (s.computeSs).mag = s.mag := rfl
@[simp] theorem State.computeSs_phase : (s.computeSs).phase = s.phase := rfl
@[simp] theorem State.computeSs_readData : (s.computeSs).readData = s.readData := rfl
@[simp] theorem State.computeSs_script : (s.computeSs).script = s.script := rfl
@[simp] theorem State.computeSs_draws : (s.computeSs).draws = s.draws := rfl

@[simp] theorem State.computeRoot_memPixels : (s.computeRoot).memPixels = s.memPixels := rfl
@[simp] theorem State.computeRoot_width : (s.computeRoot).width = s.width := rfl
@[simp] theorem State.computeRoot_height : (s.computeRoot).height = s.height := rfl
@[simp] theorem State.computeRoot_busy : (s.computeRoot).busy = s.busy := rfl
@[simp] theorem State.computeRoot_done : (s.computeRoot).done = s.done := rfl
@[simp] theorem State.computeRoot_err : (s.computeRoot).err = s.err := rfl
@[simp] theorem State.computeRoot_src : (s.computeRoot).src = s.src := rfl
@[simp] theorem State.computeRoot_dst : (s.computeRoot).dst = s.dst := rfl
@[simp] theorem State.computeRoot_x : (s.computeRoot).x = s.x := rfl
@[simp] theorem State.computeRoot_y : (s.computeRoot).y = s.y := rfl
@[simp] theorem State.computeRoot_n : (s.computeRoot).n = s.n := rfl
@[simp] theorem State.computeRoot_alpha : (s.computeRoot).alpha = s.alpha := rfl
@[simp] theorem State.computeRoot_gx : (s.computeRoot).gx = s.gx := rfl
@[simp] theorem State.computeRoot_gy : (s.computeRoot).gy = s.gy := rfl
@[simp] theorem State.computeRoot_ss : (s.computeRoot).ss = s.ss := rfl
@[simp] theorem State.computeRoot_root : (s.computeRoot).root = BitVec.ofNat 11 (isqrt s.ss.toNat) := rfl
@[simp] theorem State.computeRoot_mag : (s.computeRoot).mag = s.mag := rfl
@[simp] theorem State.computeRoot_phase : (s.computeRoot).phase = s.phase := rfl
@[simp] theorem State.computeRoot_readData : (s.computeRoot).readData = s.readData := rfl
@[simp] theorem State.computeRoot_script : (s.computeRoot).script = s.script := rfl
@[simp] theorem State.computeRoot_draws : (s.computeRoot).draws = s.draws := rfl

@[simp] theorem State.computeMag_memPixels : (s.computeMag).memPixels = s.memPixels := rfl
@[simp] theorem State.computeMag_width : (s.computeMag).width = s.width := rfl
@[simp] theorem State.computeMag_height : (s.computeMag).height = s.height := rfl
@[simp] theorem State.computeMag_busy : (s.computeMag).busy = s.busy := rfl
@[simp] theorem State.computeMag_done : (s.computeMag).done = s.done := rfl
@[simp] theorem State.computeMag_err : (s.computeMag).err = s.err := rfl
@[simp] theorem State.computeMag_src : (s.computeMag).src = s.src := rfl
@[simp] theorem State.computeMag_dst : (s.computeMag).dst = s.dst := rfl
@[simp] theorem State.computeMag_x : (s.computeMag).x = s.x := rfl
@[simp] theorem State.computeMag_y : (s.computeMag).y = s.y := rfl
@[simp] theorem State.computeMag_n : (s.computeMag).n = s.n := rfl
@[simp] theorem State.computeMag_alpha : (s.computeMag).alpha = s.alpha := rfl
@[simp] theorem State.computeMag_gx : (s.computeMag).gx = s.gx := rfl
@[simp] theorem State.computeMag_gy : (s.computeMag).gy = s.gy := rfl
@[simp] theorem State.computeMag_ss : (s.computeMag).ss = s.ss := rfl
@[simp] theorem State.computeMag_root : (s.computeMag).root = s.root := rfl
@[simp] theorem State.computeMag_mag : (s.computeMag).mag = narrowTo8 Config.narrowMode s.root.toNat := rfl
@[simp] theorem State.computeMag_phase : (s.computeMag).phase = s.phase := rfl
@[simp] theorem State.computeMag_readData : (s.computeMag).readData = s.readData := rfl
@[simp] theorem State.computeMag_script : (s.computeMag).script = s.script := rfl
@[simp] theorem State.computeMag_draws : (s.computeMag).draws = s.draws := rfl

@[simp] theorem State.undefineWorking_memPixels : (s.undefineWorking).memPixels = s.memPixels := rfl
@[simp] theorem State.undefineWorking_width : (s.undefineWorking).width = s.width := rfl
@[simp] theorem State.undefineWorking_height : (s.undefineWorking).height = s.height := rfl
@[simp] theorem State.undefineWorking_busy : (s.undefineWorking).busy = s.busy := rfl
@[simp] theorem State.undefineWorking_done : (s.undefineWorking).done = s.done := rfl
@[simp] theorem State.undefineWorking_err : (s.undefineWorking).err = s.err := rfl
@[simp] theorem State.undefineWorking_src : (s.undefineWorking).src = s.src := rfl
@[simp] theorem State.undefineWorking_dst : (s.undefineWorking).dst = s.dst := rfl
@[simp] theorem State.undefineWorking_phase : (s.undefineWorking).phase = s.phase := rfl
@[simp] theorem State.undefineWorking_readData : (s.undefineWorking).readData = s.readData := rfl
@[simp] theorem State.undefineWorking_script : (s.undefineWorking).script = s.script := rfl
@[simp] theorem State.undefineWorking_draws : (s.undefineWorking).draws = s.draws + 16 := rfl

@[simp] theorem State.abandonImage_memPixels : (s.abandonImage).memPixels = s.memPixels := rfl
@[simp] theorem State.abandonImage_width : (s.abandonImage).width = s.width := rfl
@[simp] theorem State.abandonImage_height : (s.abandonImage).height = s.height := rfl
@[simp] theorem State.abandonImage_busy : (s.abandonImage).busy = s.busy := rfl
@[simp] theorem State.abandonImage_done : (s.abandonImage).done = s.done := rfl
@[simp] theorem State.abandonImage_err : (s.abandonImage).err = s.err := rfl
@[simp] theorem State.abandonImage_src : (s.abandonImage).src = s.src := rfl
@[simp] theorem State.abandonImage_dst : (s.abandonImage).dst = s.dst.setPrefix (min s.imageBytes s.memBytes) fun a => Config.freeBits 8 (s.draws + a) := rfl
@[simp] theorem State.abandonImage_x : (s.abandonImage).x = s.x := rfl
@[simp] theorem State.abandonImage_y : (s.abandonImage).y = s.y := rfl
@[simp] theorem State.abandonImage_n : (s.abandonImage).n = s.n := rfl
@[simp] theorem State.abandonImage_alpha : (s.abandonImage).alpha = s.alpha := rfl
@[simp] theorem State.abandonImage_gx : (s.abandonImage).gx = s.gx := rfl
@[simp] theorem State.abandonImage_gy : (s.abandonImage).gy = s.gy := rfl
@[simp] theorem State.abandonImage_ss : (s.abandonImage).ss = s.ss := rfl
@[simp] theorem State.abandonImage_root : (s.abandonImage).root = s.root := rfl
@[simp] theorem State.abandonImage_mag : (s.abandonImage).mag = s.mag := rfl
@[simp] theorem State.abandonImage_phase : (s.abandonImage).phase = s.phase := rfl
@[simp] theorem State.abandonImage_readData : (s.abandonImage).readData = s.readData := rfl
@[simp] theorem State.abandonImage_script : (s.abandonImage).script = s.script := rfl
@[simp] theorem State.abandonImage_draws : (s.abandonImage).draws = s.draws + min s.imageBytes s.memBytes := rfl

variable (m : PixelMem) (c : Memory)

@[simp] theorem State.setMem_memPixels : (s.setMem m c).memPixels = s.memPixels := by cases m <;> rfl
@[simp] theorem State.setMem_width : (s.setMem m c).width = s.width := by cases m <;> rfl
@[simp] theorem State.setMem_height : (s.setMem m c).height = s.height := by cases m <;> rfl
@[simp] theorem State.setMem_busy : (s.setMem m c).busy = s.busy := by cases m <;> rfl
@[simp] theorem State.setMem_done : (s.setMem m c).done = s.done := by cases m <;> rfl
@[simp] theorem State.setMem_err : (s.setMem m c).err = s.err := by cases m <;> rfl
@[simp] theorem State.setMem_x : (s.setMem m c).x = s.x := by cases m <;> rfl
@[simp] theorem State.setMem_y : (s.setMem m c).y = s.y := by cases m <;> rfl
@[simp] theorem State.setMem_n : (s.setMem m c).n = s.n := by cases m <;> rfl
@[simp] theorem State.setMem_alpha : (s.setMem m c).alpha = s.alpha := by cases m <;> rfl
@[simp] theorem State.setMem_gx : (s.setMem m c).gx = s.gx := by cases m <;> rfl
@[simp] theorem State.setMem_gy : (s.setMem m c).gy = s.gy := by cases m <;> rfl
@[simp] theorem State.setMem_ss : (s.setMem m c).ss = s.ss := by cases m <;> rfl
@[simp] theorem State.setMem_root : (s.setMem m c).root = s.root := by cases m <;> rfl
@[simp] theorem State.setMem_mag : (s.setMem m c).mag = s.mag := by cases m <;> rfl
@[simp] theorem State.setMem_phase : (s.setMem m c).phase = s.phase := by cases m <;> rfl
@[simp] theorem State.setMem_readData : (s.setMem m c).readData = s.readData := by cases m <;> rfl
@[simp] theorem State.setMem_script : (s.setMem m c).script = s.script := by cases m <;> rfl
@[simp] theorem State.setMem_draws : (s.setMem m c).draws = s.draws := by cases m <;> rfl
@[simp] theorem State.setMem_mem : (s.setMem m c).mem m = c := by cases m <;> rfl
theorem State.setMem_mem_other {m m' : PixelMem} (h : m' ≠ m) : (s.setMem m c).mem m' = s.mem m' := by
  cases m <;> cases m' <;> first | rfl | exact absurd rfl h

@[simp] theorem State.setMem_memBytes : (s.setMem m c).memBytes = s.memBytes := by cases m <;> rfl
@[simp] theorem State.answer_memBytes (v : Word) : (s.answer v).memBytes = s.memBytes := rfl
@[simp] theorem State.answer_mem (v : Word) : (s.answer v).mem m = s.mem m := by cases m <;> rfl

end Sys2Proof.Machine
end

