-- ==== Sys2Proof/Laws/Ops.lean ====
section
/-! SUPPORT. One lemma for each shared operation: everything it can do when it answers a next state. -/

namespace Sys2Proof.Machine

@[simp] theorem andThen_of_next (s : State) (f : State → Result) : andThen (.next s) f = f s := rfl
@[simp] theorem andThen_of_fault (e : Fault) (f : State → Result) : andThen (.fault e) f = .fault e := rfl
@[simp] theorem andThen_of_refused (e : Refusal) (f : State → Result) : andThen (.refused e) f = .refused e := rfl

/-- Two operations in a row answer a next state when each does. -/
theorem andThen_eq_next {r : Result} {f : State → Result} {t : State} :
    andThen r f = .next t ↔ ∃ s, r = .next s ∧ f s = .next t := by
  cases r <;> simp [andThen]

theorem andThen_assoc (r : Result) (f g : State → Result) :
    andThen (andThen r f) g = andThen r fun s => andThen (f s) g := by
  cases r <;> rfl

theorem ofExcept_eq_next {r : Except Fault State} {t : State} : ofExcept r = .next t ↔ r = .ok t := by
  cases r <;> simp [ofExcept]

/-- A byte read answers exactly where a byte has been written inside the memory. -/
theorem State.readByte_eq_ok {s : State} {m : PixelMem} {a : Nat} {v : Byte} :
    s.readByte m a = .ok v ↔ a < s.memBytes ∧ (s.mem m).read a = some v := by
  unfold State.readByte
  split
  · rename_i h
    cases hr : (s.mem m).read a <;> simp [h]
  · rename_i h
    simp [h]

/-- A 32-bit read answers exactly where its four bytes do. -/
theorem State.readWord_eq_ok {s : State} {m : PixelMem} {a : Nat} {v : Word} :
    s.readWord m a = .ok v ↔ ∃ b0 b1 b2 b3, s.readByte m a = .ok b0 ∧ s.readByte m (a + 1) = .ok b1 ∧
      s.readByte m (a + 2) = .ok b2 ∧ s.readByte m (a + 3) = .ok b3 ∧ v = wordOfBytes b0 b1 b2 b3 := by
  unfold State.readWord
  cases s.readByte m a <;> cases s.readByte m (a + 1) <;> cases s.readByte m (a + 2) <;>
    cases s.readByte m (a + 3) <;> simp [eq_comm]

/-- The engine reads a channel exactly of a pixel of the image whose byte has been written. -/
theorem State.channel_eq_ok {s : State} {x y : Int} {k : Nat} {v : Byte} :
    s.channel x y k = .ok v ↔ (0 ≤ x ∧ x < s.width.toNat ∧ 0 ≤ y ∧ y < s.height.toNat) ∧
      s.readByte .src (pixelAddr s.width.toNat x.toNat y.toNat + k) = .ok v := by
  unfold State.channel
  split
  · rename_i h
    exact ⟨fun e => ⟨h, e⟩, fun e => e.2⟩
  · rename_i h
    simp [h]

/-- LUMA of a neighbour answers exactly where its three colour bytes do. -/
theorem State.neighbourLuma_eq_ok {s : State} {i : Fin 8} {v : Byte} :
    s.neighbourLuma i = .ok v ↔ ∃ b g r,
      s.channel (s.x.toNat + (neighbourOffset i).1) (s.y.toNat + (neighbourOffset i).2) 0 = .ok b ∧
      s.channel (s.x.toNat + (neighbourOffset i).1) (s.y.toNat + (neighbourOffset i).2) 1 = .ok g ∧
      s.channel (s.x.toNat + (neighbourOffset i).1) (s.y.toNat + (neighbourOffset i).2) 2 = .ok r ∧
      v = lumaValue b g r := by
  unfold State.neighbourLuma
  dsimp only
  cases s.channel (s.x.toNat + (neighbourOffset i).1) (s.y.toNat + (neighbourOffset i).2) 0 <;>
    cases s.channel (s.x.toNat + (neighbourOffset i).1) (s.y.toNat + (neighbourOffset i).2) 1 <;>
    cases s.channel (s.x.toNat + (neighbourOffset i).1) (s.y.toNat + (neighbourOffset i).2) 2 <;>
    simp [eq_comm]

/-- LUMA writes one neighbour register and nothing else. -/
theorem State.sample_eq_next {s t : State} {i : Fin 8} :
    s.sample i = .next t ↔ ∃ v, s.neighbourLuma i = .ok v ∧ t = { s with n := s.n.set i v } := by
  unfold State.sample
  cases s.neighbourLuma i <;> simp [eq_comm]

/-- The sampling of the centre writes ALPHA and nothing else. -/
theorem State.sampleAlpha_eq_next {s t : State} :
    s.sampleAlpha = .next t ↔ ∃ v, s.channel s.x.toNat s.y.toNat 3 = .ok v ∧ t = { s with alpha := v } := by
  unfold State.sampleAlpha
  cases s.channel s.x.toNat s.y.toNat 3 <;> simp [eq_comm]

/-- PACK's store answers exactly at a pixel of an image that fits there, and writes four bytes of DST. -/
theorem State.storePixel_eq_next {s t : State} {v : Word} :
    s.storePixel v = .next t ↔ s.x.toNat < s.width.toNat ∧ s.y.toNat < s.height.toNat ∧
      pixelAddr s.width.toNat s.x.toNat s.y.toNat + 4 ≤ s.memBytes ∧
      t = { s with dst := s.dst.writeWord (pixelAddr s.width.toNat s.x.toNat s.y.toNat) v } := by
  unfold State.storePixel
  dsimp only
  split
  · rename_i h
    split
    · rename_i h'
      simp [h, h', eq_comm]
    · rename_i h'
      simp [h']
  · rename_i h
    simp only [reduceCtorEq, false_iff]
    exact fun e => h ⟨e.1, e.2.1⟩

/-- ZFILL answers exactly where the image fits, and writes the image area of DST. -/
theorem State.zeroImage_eq_next {s t : State} :
    s.zeroImage = .next t ↔ s.imageBytes ≤ s.memBytes ∧
      t = { s with dst := s.dst.setPrefix s.imageBytes fun _ => 0 } := by
  unfold State.zeroImage
  split
  · rename_i h
    simp [h, eq_comm]
  · rename_i h
    simp [h]

/-- A host access goes through only while the engine is idle and inside the memory. -/
theorem State.hostAccess_eq_next {s t : State} {m : PixelMem} {a k : Nat} {r : Result} :
    s.hostAccess m a k r = .next t ↔ s.busy = false ∧ a + k ≤ s.memBytes ∧ r = .next t := by
  unfold State.hostAccess
  split
  · rename_i h
    simp [h]
  · rename_i h
    split
    · rename_i h'
      simp [h, h']
    · rename_i h'
      simp [h']

theorem aligned_eq_next {a : Nat} {r : Result} {t : State} :
    aligned a r = .next t ↔ a % 4 = 0 ∧ r = .next t := by
  unfold aligned
  split
  · rename_i h
    simp [h]
  · rename_i h
    simp [h]

/-- A neighbour register after one has been written (R28). -/
theorem Window.get_set (n : Window) (i j : Fin 8) (v : Byte) :
    (n.set i v).get j = if j = i then v else n.get j := by
  fin_cases i <;> fin_cases j <;> rfl

/-- Two windows that agree in every register are the same. -/
theorem Window.ext_get {n n' : Window} (h : ∀ i, n.get i = n'.get i) : n = n' := by
  obtain ⟨_, _, _, _, _, _, _, _⟩ := n
  obtain ⟨_, _, _, _, _, _, _, _⟩ := n'
  have h0 := h 0
  have h1 := h 1
  have h2 := h 2
  have h3 := h 3
  have h4 := h 4
  have h5 := h 5
  have h6 := h 6
  have h7 := h 7
  simp only [Window.get] at h0 h1 h2 h3 h4 h5 h6 h7
  subst h0 h1 h2 h3 h4 h5 h6 h7
  rfl

@[simp] theorem State.channel_with_n (s : State) (n : Window) (x y : Int) (k : Nat) :
    ({ s with n := n } : State).channel x y k = s.channel x y k := by
  unfold State.channel State.readByte State.mem State.memBytes
  rfl

@[simp] theorem State.neighbourLuma_with_n (s : State) (n : Window) (i : Fin 8) :
    ({ s with n := n } : State).neighbourLuma i = s.neighbourLuma i := by
  unfold State.neighbourLuma
  simp only [State.channel_with_n]

/-- What a row of samples does, from what each neighbour's LUMA is. -/
theorem sampleAll_of_ok (w : Fin 8 → Byte) (is : List (Fin 8)) (s : State)
    (h : ∀ i ∈ is, s.neighbourLuma i = .ok (w i)) :
    sampleAll is s = .next { s with n := is.foldl (fun n i => n.set i (w i)) s.n } := by
  induction is generalizing s with
  | nil => rfl
  | cons i is ih =>
    rw [sampleAll, State.sample, h i List.mem_cons_self]
    exact ih { s with n := s.n.set i (w i) } fun j hj => h j (List.mem_cons_of_mem _ hj)

/-- A row of samples that answers a next state has read every neighbour of the row. -/
theorem ok_of_sampleAll {is : List (Fin 8)} {s t : State} (h : sampleAll is s = .next t) :
    ∀ i ∈ is, ∃ v, s.neighbourLuma i = .ok v := by
  induction is generalizing s with
  | nil => simp
  | cons i is ih =>
    obtain ⟨u, hu, ht⟩ := andThen_eq_next.mp h
    obtain ⟨v, hv, rfl⟩ := State.sample_eq_next.mp hu
    intro j hj
    rcases List.mem_cons.mp hj with rfl | hj
    · exact ⟨v, hv⟩
    · exact ih ht j hj

/-- Writing all eight neighbour registers. -/
theorem Window.foldl_set (n w : Window) :
    ([0, 1, 2, 3, 4, 5, 6, 7] : List (Fin 8)).foldl (fun n i => n.set i (w.get i)) n = w := by
  refine Window.ext_get fun i => ?_
  simp only [List.foldl_cons, List.foldl_nil, Window.get_set]
  fin_cases i <;> rfl

/-- WINDOW where its nine pixels can be read. -/
theorem State.fillWindow_of_ok {s : State} {w : Window} {a : Byte}
    (h : ∀ i, s.neighbourLuma i = .ok (w.get i)) (ha : s.channel s.x.toNat s.y.toNat 3 = .ok a) :
    s.fillWindow = .next { s with n := w, alpha := a } := by
  rw [State.fillWindow, sampleAll_of_ok w.get _ s fun i _ => h i, andThen_of_next, Window.foldl_set]
  rw [State.sampleAlpha_eq_next]
  refine ⟨a, ?_, rfl⟩
  rw [State.channel_with_n]
  exact ha

/-- WINDOW answers exactly where its nine pixels can be read, and writes n[0..7] and ALPHA and nothing else. -/
theorem State.fillWindow_eq_next {s t : State} :
    s.fillWindow = .next t ↔ (∀ i, s.neighbourLuma i = .ok (t.n.get i)) ∧
      s.channel s.x.toNat s.y.toNat 3 = .ok t.alpha ∧ t = { s with n := t.n, alpha := t.alpha } := by
  constructor
  · intro h
    obtain ⟨u, hu, ht⟩ := andThen_eq_next.mp h
    choose w hw using fun i : Fin 8 => ok_of_sampleAll hu i (by fin_cases i <;> simp)
    have hw' : ∀ i, s.neighbourLuma i = .ok ((⟨w 0, w 1, w 2, w 3, w 4, w 5, w 6, w 7⟩ : Window).get i) := by
      intro i
      rw [hw i]
      fin_cases i <;> rfl
    rw [sampleAll_of_ok _ _ s fun i _ => hw' i, Window.foldl_set] at hu
    cases hu
    rw [State.sampleAlpha_eq_next] at ht
    obtain ⟨a, ha, rfl⟩ := ht
    rw [State.channel_with_n] at ha
    exact ⟨hw', ha, rfl⟩
  · rintro ⟨h, ha, ht⟩
    rw [State.fillWindow_of_ok h ha]
    exact congrArg _ ht.symm

end Sys2Proof.Machine
end

