-- ==== Sys2Proof/Laws/PerInstr.lean ====
section
/-! SUPPORT. Statements about every operation as syntax, made constructor by constructor. -/

namespace Sys2Proof.Laws.TransactionShape

/-- A well-formed operation that a bus transaction selects is written as one of the block's shapes: 32 bits at a
multiple of 4, or one byte of a pixel memory (spec/20_memory.md R54, spec/44_host_commands.md R181). -/
def Statement (i : Instr) : Prop :=
  i.wellFormed = true → ∀ t, encode i = .host (.bus t) →
    (t.width = 4 ∧ t.addr % 4 = 0) ∨ (t.width = 1 ∧ t.space ≠ .reg)

/-- The shape of a register transaction. -/
theorem of_regTxn {d : Dir} {off : Nat} {v : Word} {t : Txn} (h : regTxn d off v = .host (.bus t))
    (ho : off % 4 = 0) : t.width = 4 ∧ t.addr % 4 = 0 := by
  cases h
  exact ⟨rfl, ho⟩

theorem apply : Statement .apply := fun _ _ h => nomatch h
theorem zfill : Statement .zfill := fun _ _ h => nomatch h
theorem window : Statement .window := fun _ _ h => nomatch h
theorem luma (i : Fin 8) : Statement (.luma i) := fun _ _ h => nomatch h
theorem gx : Statement .gx := fun _ _ h => nomatch h
theorem gy : Statement .gy := fun _ _ h => nomatch h
theorem sqsum : Statement .sqsum := fun _ _ h => nomatch h
theorem root : Statement .root := fun _ _ h => nomatch h
theorem narrow : Statement .narrow := fun _ _ h => nomatch h
theorem pack : Statement .pack := fun _ _ h => nomatch h
theorem wrCtrl (v : Word) : Statement (.wrCtrl v) := fun _ _ h => .inl (of_regTxn h rfl)
theorem rdCtrl : Statement .rdCtrl := fun _ _ h => .inl (of_regTxn h rfl)
theorem rdStatus : Statement .rdStatus := fun _ _ h => .inl (of_regTxn h rfl)
theorem wrStatus (v : Word) : Statement (.wrStatus v) := fun _ _ h => .inl (of_regTxn h rfl)
theorem wrWidth (v : Word) : Statement (.wrWidth v) := fun _ _ h => .inl (of_regTxn h rfl)
theorem rdWidth : Statement .rdWidth := fun _ _ h => .inl (of_regTxn h rfl)
theorem wrHeight (v : Word) : Statement (.wrHeight v) := fun _ _ h => .inl (of_regTxn h rfl)
theorem rdHeight : Statement .rdHeight := fun _ _ h => .inl (of_regTxn h rfl)
theorem wrb (m : PixelMem) (a : Nat) (v : Byte) : Statement (.wrb m a v) := by
  intro _ t h
  cases h
  exact .inr ⟨rfl, nofun⟩
theorem rdb (m : PixelMem) (a : Nat) : Statement (.rdb m a) := by
  intro _ t h
  cases h
  exact .inr ⟨rfl, nofun⟩
theorem wrp (m : PixelMem) (a : Nat) (v : Word) : Statement (.wrp m a v) := by
  intro hw t h
  cases h
  exact .inl ⟨rfl, beq_iff_eq.mp hw⟩
theorem rdp (m : PixelMem) (a : Nat) : Statement (.rdp m a) := by
  intro hw t h
  cases h
  exact .inl ⟨rfl, beq_iff_eq.mp hw⟩
theorem reset : Statement .reset := fun _ _ h => nomatch h

end Sys2Proof.Laws.TransactionShape
end

