-- ==== Sys2Proof/Machine/Script.lean ====
section
/-! DEFINITION. The host script notation: a line and the pseudo-operations as lists of moves (spec/30_encoding.md R94). -/

namespace Sys2Proof.Machine

/-- A line of a script: the move of an operation's own selector. -/
def line (i : Instr) : List Move :=
  match encode i with
  | .host h => [.host h]
  | .datapath _ _ => []

/-- START: WR CTRL, 1. -/
def scriptStart : List Move := line (.wrCtrl 1)

/-- APPLY w, h: the two sizes, START, WAIT. -/
def scriptApply (w h : Word) : List Move :=
  line (.wrWidth w) ++ line (.wrHeight h) ++ scriptStart ++ [.wait]

/-- LOAD space, addr, bytes: one WRB for each byte. -/
def scriptLoad (m : PixelMem) (a : Nat) : List Byte → List Move
  | [] => []
  | b :: bs => line (.wrb m a b) ++ scriptLoad m (a + 1) bs

/-- FILLP space, addr, count, v: `count` WRPs. -/
def scriptFillp (m : PixelMem) (a : Nat) : Nat → Word → List Move
  | 0, _ => []
  | k + 1, v => line (.wrp m a v) ++ scriptFillp m (a + 4) k v

end Sys2Proof.Machine
end

