-- ==== Sys2Proof/Tests/Slice0.lean ====
section
/-! SUPPORT. Tests: expected results from spec/95_test_vectors.md and the rules' own examples, and a witness for the
hypotheses of each obligation. -/

namespace Sys2Proof.Machine

/-- The next state, if there is one. -/
def stateAfter : Result → Option State
  | .next s => some s
  | .fault _ => none
  | .refused _ => none

/-- The fault, if there is one. -/
def faultOf : Result → Option Fault
  | .next _ => none
  | .fault e => some e
  | .refused _ => none

/-- The refusal, if there is one. -/
def refusalOf : Result → Option Refusal
  | .next _ => none
  | .fault _ => none
  | .refused e => some e

/-- A memory that holds some bytes from address 0. -/
def memoryOf (bs : List Byte) : Memory := (List.range bs.length).zip bs

/-- `k` bytes of a memory from an address. -/
def bytesAt (m : Memory) (a k : Nat) : List (Option Byte) := (List.range k).map fun i => m.read (a + i)

/-- Image B: 3×3, a vertical edge, distinct alphas. -/
def imageB : List Byte :=
  [0x00, 0x00, 0x00, 0x10, 0x09, 0x09, 0x09, 0x11, 0x64, 0x64, 0x64, 0x12,
   0x00, 0x00, 0x00, 0x13, 0x09, 0x09, 0x09, 0x14, 0x64, 0x64, 0x64, 0x15,
   0x00, 0x00, 0x00, 0x16, 0x09, 0x09, 0x09, 0x17, 0x64, 0x64, 0x64, 0x18]

/-- A row of image C: one grey level across the discontinuity at 128. -/
def rowC : List Byte :=
  [0x7F, 0x7F, 0x7F, 0xFF, 0x7F, 0x7F, 0x7F, 0xFF, 0x80, 0x80, 0x80, 0x82, 0x80, 0x80, 0x80, 0x83, 0x80, 0x80, 0x80, 0x84]

/-- Image D: 4×4, mixed colours. -/
def imageD : List Byte :=
  [0x00, 0x00, 0x00, 0xA0, 0x28, 0x1E, 0x03, 0xA1, 0x50, 0x78, 0x06, 0xA2, 0x78, 0x0E, 0x09, 0xA3,
   0x07, 0x32, 0x19, 0xA4, 0x2F, 0x50, 0x1C, 0xA5, 0x57, 0xAA, 0x1F, 0xA6, 0x7F, 0x40, 0x22, 0xA7,
   0x0E, 0x64, 0x64, 0xA8, 0x36, 0x82, 0x67, 0xA9, 0x5E, 0xDC, 0x6A, 0xAA, 0x86, 0x72, 0x6D, 0xAB,
   0x15, 0x96, 0xE1, 0xAC, 0x3D, 0xB4, 0xE4, 0xAD, 0x65, 0x0E, 0xE7, 0xAE, 0x8D, 0xA4, 0xEA, 0xAF]

/-- MEM_BYTES = 64, a size and the bytes of SRC, idle. -/
def idleWith (w h : Word) (bs : List Byte) : State :=
  { State.powerUp 16 with width := w, height := h, src := memoryOf bs }

/-- The same at the beginning of a run. -/
def runWith (w h : Word) (bs : List Byte) : State := { idleWith w h bs with busy := true }

/-- Image D in a run, at the last interior pixel (2, 2), ready for GY; the values are the vector table's. -/
def midRun : State :=
  { runWith 4 4 imageD with
    x := 2
    y := 2
    phase := .gy
    n := ⟨51, 96, 75, 95, 119, 0x9C, 115, 0xB3⟩
    alpha := 0xAA
    gx := 95 }

/-! ## WellFormed: an ill-formed term for each check -/

theorem test_misaligned_wrp_ill_formed : (Instr.wrp .src 62 0).wellFormed = false := by decide
theorem test_misaligned_rdp_ill_formed : (Instr.rdp .dst 5).wellFormed = false := by decide
theorem test_aligned_wrp_well_formed : (Instr.wrp .src 60 0).wellFormed = true := by decide

/-! ## Decoding: a selector written out from R90 for each operation -/

theorem test_decode_apply : decode (.datapath 0 0) = .instr .apply := by decide
theorem test_decode_zfill : decode (.datapath 1 0) = .instr .zfill := by decide
theorem test_decode_window : decode (.datapath 2 0) = .instr .window := by decide
theorem test_decode_luma : decode (.datapath 3 7) = .instr (.luma 7) := by decide
theorem test_decode_gx : decode (.datapath 4 0) = .instr .gx := by decide
theorem test_decode_gy : decode (.datapath 5 0) = .instr .gy := by decide
theorem test_decode_sqsum : decode (.datapath 6 0) = .instr .sqsum := by decide
theorem test_decode_root : decode (.datapath 7 0) = .instr .root := by decide
theorem test_decode_narrow : decode (.datapath 8 0) = .instr .narrow := by decide
theorem test_decode_pack : decode (.datapath 9 0) = .instr .pack := by decide
theorem test_decode_order_ten_rejected : decode (.datapath 10 0) = .rejected .noSuchOrder := by decide
theorem test_decode_wr_ctrl : decode (.host (.bus ⟨.reg, .write, 4, 0x00, 0xFFFFFFFF⟩)) = .instr (.wrCtrl 0xFFFFFFFF) := by decide
theorem test_decode_rd_ctrl : decode (.host (.bus ⟨.reg, .read, 4, 0x00, 7⟩)) = .instr .rdCtrl := by decide
theorem test_decode_rd_status : decode (.host (.bus ⟨.reg, .read, 4, 0x04, 0⟩)) = .instr .rdStatus := by decide
theorem test_decode_wr_status : decode (.host (.bus ⟨.reg, .write, 4, 0x04, 3⟩)) = .instr (.wrStatus 3) := by decide
theorem test_decode_wr_width : decode (.host (.bus ⟨.reg, .write, 4, 0x08, 4⟩)) = .instr (.wrWidth 4) := by decide
theorem test_decode_rd_width : decode (.host (.bus ⟨.reg, .read, 4, 0x08, 0⟩)) = .instr .rdWidth := by decide
theorem test_decode_wr_height : decode (.host (.bus ⟨.reg, .write, 4, 0x0C, 5⟩)) = .instr (.wrHeight 5) := by decide
theorem test_decode_rd_height : decode (.host (.bus ⟨.reg, .read, 4, 0x0C, 0⟩)) = .instr .rdHeight := by decide
theorem test_decode_wrb : decode (.host (.bus ⟨.pixels .src, .write, 1, 3, 0x110⟩)) = .instr (.wrb .src 3 0x10) := by decide
theorem test_decode_rdb : decode (.host (.bus ⟨.pixels .dst, .read, 1, 19, 0⟩)) = .instr (.rdb .dst 19) := by decide
theorem test_decode_wrp : decode (.host (.bus ⟨.pixels .dst, .write, 4, 16, 0x12345678⟩)) = .instr (.wrp .dst 16 0x12345678) := by decide
theorem test_decode_rdp : decode (.host (.bus ⟨.pixels .src, .read, 4, 8, 0⟩)) = .instr (.rdp .src 8) := by decide
theorem test_decode_reset : decode (.host .reset) = .instr .reset := by decide
theorem test_decode_unmapped_read : decode (.host (.bus ⟨.reg, .read, 4, 0x10, 0⟩)) = .unmappedRead := by decide
theorem test_decode_unmapped_write : decode (.host (.bus ⟨.reg, .write, 4, 0x14, 9⟩)) = .unmappedWrite := by decide
theorem test_decode_byte_register_rejected : decode (.host (.bus ⟨.reg, .read, 1, 0x08, 0⟩)) = .rejected .regWidth := by decide
theorem test_decode_register_offset_two_rejected :
    decode (.host (.bus ⟨.reg, .read, 4, 0x02, 0⟩)) = .rejected .regOffset := by decide
theorem test_decode_half_word_memory_rejected :
    decode (.host (.bus ⟨.pixels .src, .read, 2, 0, 0⟩)) = .rejected .memWidth := by decide
theorem test_decode_misaligned_memory_rejected :
    decode (.host (.bus ⟨.pixels .src, .write, 4, 61, 0⟩)) = .rejected .memAlign := by decide
/-- Log 1's fields by hand: address 0x14 = 1*16 + 4, space DST 2, read, width code 4 - 4. -/
theorem test_number_of_a_read : HostInput.ofNat (2 ^ 48 * 1 + 2 * 16 + 4) = .bus ⟨.pixels .dst, .read, 4, 0x14, 0⟩ := by decide
theorem test_table_words :
    [0x0, 0x4, 0x8, 0xC].map (decodeTableWord 8) = [some .rdCtrl, some .rdStatus, some .rdWidth, some .rdHeight] := by decide

/-! ## Arithmetic (tables of 95_test_vectors.md) -/

/-- Section 2, rows 1 to 16. -/
theorem test_luma_table :
    ([(0, 0, 0), (255, 255, 255), (127, 127, 127), (128, 128, 128), (255, 255, 254), (0, 0, 1), (0, 0, 2), (1, 1, 1),
      (128, 128, 127), (129, 128, 127), (255, 0, 0), (255, 255, 0), (10, 20, 30), (0, 255, 128), (200, 100, 83),
      (200, 100, 84)] : List (Byte × Byte × Byte)).map (fun p => (lumaValue p.1 p.2.1 p.2.2).toInt)
    = [0, -1, 127, -128, -2, 0, 0, 1, 127, -128, 85, -86, 20, 127, 127, -128] := by decide

/-- Section 4, the table of ROOT. -/
theorem test_root_table : [0, 1, 2, 3, 4, 8, 9, 15, 16].map isqrt = [0, 1, 1, 1, 2, 2, 3, 3, 4] := by decide
theorem test_root_table_around_256 : isqrt 65535 = 255 ∧ isqrt 65536 = 256 := by decide
theorem test_root_table_top : isqrt 1300500 = 1140 ∧ isqrt 2080800 = 1442 := by decide

/-- Section 4, the same table's columns MAG and sat. -/
theorem test_narrow_table :
    ([255, 256, 511, 512, 1020, 1140, 1442].map fun r => ((narrowTo8 .wrap r).toNat, (narrowTo8 .saturate r).toNat))
    = [(255, 255), (0, 255), (255, 255), (0, 255), (252, 255), (116, 255), (162, 255)] := by decide

/-- Section 4, rows 8, 12 and 17. -/
theorem test_gradient_rows :
    ([⟨128, 128, 128, 128, 127, 127, 127, 127⟩, ⟨10, 20, 30, 40, 50, 60, 70, 80⟩, ⟨0, 0, 0, 0, 0, 0, 128, 0⟩] : List Window).map
      (fun n => (gradX n, gradY n)) = [(510, 1020), (60, 200), (0, -256)] := by decide

/-- Section 3, the row of W = 5, (2, 1). -/
theorem test_window_addresses :
    [pixelAddr 5 2 1, pixelAddr 5 1 0, pixelAddr 5 2 0, pixelAddr 5 3 0, pixelAddr 5 1 1, pixelAddr 5 3 1, pixelAddr 5 1 2,
      pixelAddr 5 2 2, pixelAddr 5 3 2] = [28, 4, 8, 12, 24, 32, 44, 48, 52] := by decide

/-- Section 3: the numbers of interior pixels; the row of W = 2 is taken with a smaller height. -/
theorem test_interior_counts :
    [(3, 3), (4, 4), (5, 3), (3, 4), (2, 9), (0, 0), (3, 2)].map (fun p => (interiorPixels p.1 p.2).length)
    = [1, 4, 3, 2, 0, 0, 0] := by decide

/-! ## The datapath operations, one step each -/

/-- R120's example: (255, 255, 0) gives -86. -/
theorem test_exec_luma :
    (stateAfter (exec (.luma 0) { runWith 3 3 ([255, 255, 0] ++ imageB.drop 3) with x := 1, y := 1 })).map (·.n.n0.toInt)
    = some (-86) := by decide

/-- Image D, (1, 1): the neighbour values and the alpha. -/
theorem test_exec_window :
    (stateAfter (exec .window { runWith 4 4 imageD with x := 1, y := 1 })).map
      (fun t => ((List.finRange 8).map fun i => (t.n.get i).toInt, t.alpha))
    = some ([0, 24, 68, 27, 96, 71, 95, -116], 0xA5) := by decide

theorem test_exec_window_unwritten_faults :
    faultOf (exec .window { runWith 3 3 (imageB.take 34) with x := 1, y := 1 }) = some (.unwrittenByte .src 34) := by decide

/-- Row 7 of section 4: extreme GY. -/
theorem test_exec_gy :
    (stateAfter (exec .gy { State.reset with n := ⟨127, 127, 127, 0, 0, 128, 128, 128⟩ })).map (·.gy.toInt) = some (-1020) := by
  decide

/-- Row 6 of section 4: extreme GX. -/
theorem test_exec_gx :
    (stateAfter (exec .gx { State.reset with n := ⟨127, 0, 128, 127, 128, 127, 0, 128⟩ })).map (·.gx.toInt) = some (-1020) := by
  decide

/-- R150's example, with a negative gradient. -/
theorem test_exec_sqsum :
    (stateAfter (exec .sqsum { State.reset with gx := 19, gy := BitVec.ofInt 11 (-29) })).map (·.ss.toNat) = some 1202 := by decide

/-- R153's example. -/
theorem test_exec_root : (stateAfter (exec .root { State.reset with ss := 1202 })).map (·.root) = some 34 := by decide

/-- R157's example. -/
theorem test_exec_narrow : (stateAfter (exec .narrow { State.reset with root := 438 })).map (·.mag) = some 182 := by decide

/-- R159's example. -/
theorem test_exec_pack :
    (stateAfter (exec .pack { runWith 3 3 [] with x := 1, y := 1, mag := 0x90, alpha := 0x14 })).map
      (fun t => bytesAt t.dst 15 6) = some [none, some 0x90, some 0x90, some 0x90, some 0x14, none] := by decide

/-- R101's example: 2×3, 24 zero bytes, address 24 onward unchanged. -/
theorem test_exec_zfill :
    (stateAfter (exec .zfill { runWith 2 3 [] with dst := [(3, 0xEE), (24, 0xEE)] })).map
      (fun t => (t.dst.read 3, t.dst.read 23, t.dst.read 24, t.dst.read 25)) = some (some 0, some 0, some 0xEE, none) := by decide

/-- Image B: the one interior pixel, and the border. -/
theorem test_apply_image_b :
    (stateAfter (exec .apply (runWith 3 3 imageB))).map (fun t => (bytesAt t.dst 12 8, t.dst.length)) =
      some ([some 0, some 0, some 0, some 0, some 0x90, some 0x90, some 0x90, some 0x14], 36) := by decide

/-- Image D: its two middle rows' interior pixels. -/
theorem test_apply_image_d :
    (stateAfter (exec .apply (runWith 4 4 imageD))).map (fun t => (bytesAt t.dst 20 8, bytesAt t.dst 36 8)) =
      some ([some 0x22, some 0x22, some 0x22, some 0xA5, some 0xF4, some 0xF4, some 0xF4, some 0xA6],
        [some 0xB6, some 0xB6, some 0xB6, some 0xA9, some 0x19, some 0x19, some 0x19, some 0xAA]) := by decide

/-- Image C: the discontinuity at 128 is the largest step. -/
theorem test_apply_image_c :
    (stateAfter (exec .apply (runWith 5 3 (rowC ++ rowC ++ rowC)))).map (fun t => bytesAt t.dst 24 16) =
      some [some 0xFC, some 0xFC, some 0xFC, some 0xFF, some 0xFC, some 0xFC, some 0xFC, some 0x82,
        some 0, some 0, some 0, some 0x83, some 0, some 0, some 0, some 0] := by decide

/-! ## Host transactions (section 6; MEM_BYTES = 64) -/

/-- Row 3. -/
theorem test_wr_width : (stateAfter (exec (.wrWidth 4) State.reset)).map (fun t => (t.statusWord, t.width, t.height)) =
    some (0, 4, 0) := by decide
/-- Row 12. -/
theorem test_wr_width_busy : stateAfter (exec (.wrWidth 9) (runWith 4 4 [])) = some (runWith 4 4 []) := by decide
/-- Row 4. -/
theorem test_wr_height : (stateAfter (exec (.wrHeight 0xFFFFFFFF) State.reset)).map (·.height.toNat) = some 4294967295 := by decide
/-- Row 5: the range error. -/
theorem test_start_too_large : (stateAfter (exec (.wrCtrl 1) (idleWith 4 0xFFFFFFFF []))).map (·.statusWord) = some 6 := by decide
/-- Row 10. -/
theorem test_start_fits : (stateAfter (exec (.wrCtrl 0xFFFFFFFF) { idleWith 4 4 [] with done := true, err := true })).map
    (·.statusWord) = some 1 := by decide
/-- Row 9. -/
theorem test_start_bit_clear : stateAfter (exec (.wrCtrl 0xFFFFFFFE) (idleWith 4 4 [])) = some (idleWith 4 4 []) := by decide
/-- The range vectors: 17×1 does not fit 64 bytes; 65536×65536 does not fit 2^32. -/
theorem test_range_vectors :
    ((stateAfter (exec (.wrCtrl 1) (idleWith 17 1 []))).map (·.err),
      (stateAfter (exec (.wrCtrl 1) { idleWith 65536 65536 [] with memPixels := 2 ^ 30 })).map (·.err),
      (stateAfter (exec (.wrCtrl 1) (idleWith 16 1 []))).map (·.err),
      (stateAfter (exec (.wrCtrl 1) (idleWith 0 0xFFFFFFFF []))).map (·.err)) = (some true, some true, some false, some false) := by
  decide
/-- Row 6. -/
theorem test_rd_status : (stateAfter (exec .rdStatus { State.reset with done := true, err := true })).map
    (fun t => (t.readData, t.done, t.err)) = some (6, true, true) := by decide
/-- Row 11. -/
theorem test_rd_ctrl : (stateAfter (exec .rdCtrl { runWith 4 4 [] with readData := 5 })).map (·.readData) = some 0 := by decide
/-- Row 15. -/
theorem test_wr_status : stateAfter (exec (.wrStatus 0) { State.reset with done := true }) = some { State.reset with done := true } := by
  decide
theorem test_rd_width : (stateAfter (exec .rdWidth (runWith 4 5 []))).map (·.readData) = some 4 := by decide
theorem test_rd_height : (stateAfter (exec .rdHeight (runWith 4 5 []))).map (·.readData) = some 5 := by decide
/-- Row 20. -/
theorem test_wrp_rdb : (stateAfter (andThen (exec (.wrp .src 8 0x11223344) State.reset) (exec (.rdb .src 8)))).map
    (fun t => (t.readData, t.src.read 11, t.dst.read 8)) = some (0x44, some 0x11, none) := by decide
theorem test_wrp_rdp : (stateAfter (andThen (exec (.wrp .dst 60 0x11223344) State.reset) (exec (.rdp .dst 60)))).map
    (·.readData) = some 0x11223344 := by decide
theorem test_wrb_last_byte : (stateAfter (exec (.wrb .dst 63 7) State.reset)).map (fun t => (t.dst, t.src)) =
    some ([(63, 7)], []) := by decide
/-- Row 21. -/
theorem test_out_of_range_refused :
    (refusalOf (exec (.wrb .src 64 0) State.reset), refusalOf (exec (.wrp .src 62 0) State.reset),
      refusalOf (exec (.rdp .src 64) State.reset)) =
    (some (.addressOutOfRange .src 64), some (.notATransaction .memAlign), some (.addressOutOfRange .src 64)) := by decide
/-- Row 22. -/
theorem test_access_during_run_refused :
    (refusalOf (exec (.rdb .dst 0) (runWith 4 4 [])), refusalOf (exec (.wrp .src 0 0) (runWith 4 4 []))) =
    (some .memoryAccessDuringRun, some .memoryAccessDuringRun) := by decide
theorem test_rdb_unwritten_faults : faultOf (exec (.rdb .src 5) State.reset) = some (.unwrittenByte .src 5) := by decide
/-- Row 23: the registers, and DST above the image. -/
theorem test_reset_during_run :
    (stateAfter (exec .reset { runWith 2 2 imageB with dst := [(20, 1)] })).map
      (fun t => (t.statusWord, t.width, t.dst.read 20, t.src.read 35)) = some (0, 0, some 1, some 0x18) := by decide
theorem test_reset_while_idle :
    (stateAfter (exec .reset { idleWith 2 2 imageB with dst := [(3, 1)], done := true })).map (fun t => (t.statusWord, t.dst)) =
      some (0, [(3, 1)]) := by decide
/-- Rows 17 and 18. -/
theorem test_unmapped_registers :
    (stateAfter (step { State.reset with readData := 5, script := [.host (.bus ⟨.reg, .read, 4, 0x10, 0⟩)] }) =
        some { State.reset with readData := 0 }) ∧
      stateAfter (step { State.reset with script := [.host (.bus ⟨.reg, .write, 4, 0x14, 9⟩)] }) = some State.reset := by decide
/-- R94: the expansion of APPLY 4, 4. -/
theorem test_script_apply : scriptApply 4 4 =
    [.host (.bus ⟨.reg, .write, 4, 0x08, 4⟩), .host (.bus ⟨.reg, .write, 4, 0x0C, 4⟩), .host (.bus ⟨.reg, .write, 4, 0, 1⟩),
      .wait] := by decide
theorem test_script_lines : scriptLoad .src 4 [1, 2] ++ scriptFillp .dst 0 1 9 =
    [.host (.bus ⟨.pixels .src, .write, 1, 4, 1⟩), .host (.bus ⟨.pixels .src, .write, 1, 5, 2⟩),
      .host (.bus ⟨.pixels .dst, .write, 4, 0, 9⟩)] := by decide

/-! ## Witnesses: one concrete case that meets all hypotheses of an obligation together; for one with several clauses, a case
for each, at the boundary of its range -/

/-- `s` with one host transaction to come. -/
def sending (t : Txn) (s : State) : State := { s with script := [.host (.bus t)] }

/-- The transaction of START. -/
def startTxn : Txn := ⟨.reg, .write, 4, 0x00, 1⟩

theorem witness_DecodeOfEncodeIsTheInstruction : (Instr.wrp .dst 60 0xFFFFFFFF).wellFormed = true := by decide
theorem witness_DecodedTransactionEncodesBack :
    decode (.host (.bus ⟨.pixels .src, .write, 1, 7, 0x1FF⟩)) = .instr (.wrb .src 7 0xFF) := by decide
theorem witness_TransactionNumberRoundTrips :
    ∀ t, HostInput.bus ⟨.pixels .dst, .write, 511, 2 ^ 70 + 5, 0xFFFFFFFF⟩ = .bus t → t.width < 512 := by
  rintro _ ⟨⟩
  decide
theorem witness_TableWordRunsNext : decodeTableWord 8 4 = some .rdStatus := by decide
theorem witness_StepRunsTheHostsInstruction :
    (sending ⟨.reg, .write, 4, 8, 4⟩ State.reset).script = .host (.bus ⟨.reg, .write, 4, 8, 4⟩) :: [] ∧
      decode (.host (.bus ⟨.reg, .write, 4, 8, 4⟩)) = .instr (.wrWidth 4) := by decide
theorem witness_EngineTurnRunsItsOperation :
    midRun.busy = true ∧ midRun.script = [] ∧ midRun.phase.order = some 5 ∧ decode (.datapath 5 0) = .instr .gy := by decide
theorem witness_EngineTurnRunsItsOperation_scripted :
    ({ midRun with script := [.engineOp, .wait] } : State).script = .engineOp :: [.wait] ∧
      ({ midRun with script := [.engineRun] } : State).script = .engineRun :: [] ∧ midRun.phase ≠ .zfill ∧
      midRun.busy = true ∧ midRun.phase.order = some 5 ∧ decode (.datapath 5 0) = .instr .gy := by decide
theorem witness_EngineTurnRunsItsOperation_apply :
    let s : State := { runWith 3 3 imageB with script := [.engineRun, .wait] }
    s.busy = true ∧ s.script = .engineRun :: [.wait] ∧ s.phase = .zfill := by decide
theorem witness_IdleEngineTakesNoStep :
    State.reset.busy = false ∧ State.reset.script = [] ∧
      ({ State.reset with script := [.engineOp] } : State).script = .engineOp :: [] ∧
      ({ State.reset with script := [.engineRun] } : State).script = .engineRun :: [] := by decide
theorem witness_CompletionSetsDone :
    ({ midRun with phase := .complete } : State).script = [] ∧ ({ midRun with phase := .complete } : State).busy = true ∧
      ({ midRun with phase := .complete } : State).phase = .complete := by decide
theorem witness_WaitPollsUntilDone : ({ midRun with script := [.wait] } : State).script = .wait :: [] := rfl
theorem witness_ResetWhileIdle : (idleWith 2 2 imageB).busy = false := by decide
theorem witness_ResetDuringRunAbandonsIt : midRun.busy = true ∧ midRun.imageBytes ≤ 64 := by decide
theorem witness_SizeRegisterWrites : State.reset.busy = false ∧ midRun.busy = true := by decide
/-- Bit 0 clear; a run going on; 17 pixels do not fit 64 bytes; 16 pixels, the boundary, do. -/
theorem witness_StartCommand :
    (0xFFFFFFFE : Word).getLsbD 0 = false ∧ midRun.busy = true ∧
      ((1 : Word).getLsbD 0 = true ∧ (idleWith 17 1 []).busy = false ∧
        (idleWith 17 1 []).width.toNat * (idleWith 17 1 []).height.toNat * 4 > (idleWith 17 1 []).memBytes) ∧
      ((1 : Word).getLsbD 0 = true ∧ (idleWith 4 4 []).busy = false ∧
        (idleWith 4 4 []).width.toNat * (idleWith 4 4 []).height.toNat * 4 ≤ (idleWith 4 4 []).memBytes) := by decide
theorem witness_RangeErrorTouchesNothing :
    (1 : Word).getLsbD 0 = true ∧ (idleWith 17 1 imageB).busy = false ∧
      (idleWith 17 1 imageB).width.toNat * (idleWith 17 1 imageB).height.toNat * 4 > (idleWith 17 1 imageB).memBytes := by
  decide
theorem witness_RegisterWritesLostDuringRun :
    midRun.busy = true ∧ ∃ t, step midRun = .next t ∧ t.busy = true := ⟨by decide, _, rfl, rfl⟩
theorem witness_StatusRead : midRun.StatusLegal ∧ State.reset.StatusLegal := by decide
theorem witness_RegisterAccessOutsideTheMap_mapped_nowhere :
    (sending ⟨.reg, .read, 4, 0x10, 0⟩ midRun).script = .host (.bus ⟨.reg, .read, 4, 0x10, 0⟩) :: [] ∧
      (⟨.reg, .read, 4, 0x10, 0⟩ : Txn).space = .reg ∧ (⟨.reg, .read, 4, 0x10, 0⟩ : Txn).width = 4 ∧
      (⟨.reg, .read, 4, 0x10, 0⟩ : Txn).addr % 4 = 0 ∧ 0x10 ≤ (⟨.reg, .read, 4, 0x10, 0⟩ : Txn).addr ∧
      (⟨.reg, .read, 4, 0x10, 0⟩ : Txn).dir = .read ∧ (⟨.reg, .write, 4, 0x10, 9⟩ : Txn).dir = .write := by decide
theorem witness_RegisterAccessOutsideTheMap_refused :
    (sending ⟨.reg, .write, 3, 0x0, 1⟩ midRun).script = .host (.bus ⟨.reg, .write, 3, 0x0, 1⟩) :: [] ∧
      (⟨.reg, .write, 3, 0x0, 1⟩ : Txn).space = .reg ∧ (⟨.reg, .write, 3, 0x0, 1⟩ : Txn).width ≠ 4 ∧
      (⟨.reg, .write, 4, 0x11, 1⟩ : Txn).addr % 4 ≠ 0 := by decide
/-- The last byte and the last 32 bits of SRC, the latter read from bytes that have been written. -/
theorem witness_PixelMemoryAccessShapes :
    (sending ⟨.pixels .src, .read, 4, 60, 0⟩ (idleWith 4 4 imageD)).script =
        .host (.bus ⟨.pixels .src, .read, 4, 60, 0⟩) :: [] ∧
      (idleWith 4 4 imageD).busy = false ∧ 60 % 4 = 0 ∧ 60 + 4 ≤ (idleWith 4 4 imageD).memBytes ∧
      (∀ k < 4, (((idleWith 4 4 imageD).mem .src).read (60 + k)).isSome = true) ∧ 63 + 1 ≤ (idleWith 4 4 imageD).memBytes := by
  decide
/-- 32 bits whose last byte nothing has written, ending at the last address. -/
theorem witness_PixelMemoryAccessShapes_unwritten :
    let s := sending ⟨.pixels .src, .read, 4, 60, 0⟩ (idleWith 4 4 (imageD.take 63))
    s.script = .host (.bus ⟨.pixels .src, .read, 4, 60, 0⟩) :: [] ∧ s.busy = false ∧ 60 % 4 = 0 ∧ 60 + 4 ≤ s.memBytes ∧
      (s.mem .src).read (60 + 3) = none := by decide
theorem witness_PixelMemoryAccessShapes_refused :
    (sending ⟨.pixels .dst, .write, 1, 64, 0⟩ State.reset).script = .host (.bus ⟨.pixels .dst, .write, 1, 64, 0⟩) :: [] ∧
      State.reset.busy = false ∧ State.reset.memBytes < 64 + 1 ∧ ¬ ((2 : Nat) = 1 ∨ ((2 : Nat) = 4 ∧ 0 % 4 = 0)) ∧
      ¬ ((4 : Nat) = 1 ∨ ((4 : Nat) = 4 ∧ 61 % 4 = 0)) := by decide
theorem witness_PixelMemoryWrites :
    (State.reset.busy = false ∧ 63 < State.reset.memBytes) ∧
      (State.reset.busy = false ∧ 60 % 4 = 0 ∧ 60 + 4 ≤ State.reset.memBytes) ∧ midRun.busy = true := by decide
theorem witness_PixelMemoryReads :
    (idleWith 4 4 imageD).busy = false ∧ 60 % 4 = 0 ∧ 60 + 4 ≤ (idleWith 4 4 imageD).memBytes ∧
      bytesAt ((idleWith 4 4 imageD).mem .src) 60 4 = [some 0x8D, some 0xA4, some 0xEA, some 0xAF] ∧
      63 < (idleWith 4 4 imageD).memBytes := by decide
theorem witness_PixelMemoryReads_unwritten :
    (idleWith 3 3 imageB).busy = false ∧ 36 % 4 = 0 ∧ 36 + 4 ≤ (idleWith 3 3 imageB).memBytes ∧
      ((idleWith 3 3 imageB).mem .src).read (36 + 3) = none ∧ ((idleWith 3 3 imageB).mem .src).read 36 = none ∧
      midRun.busy = true := by decide
theorem witness_MemoryAccessDuringRunRefused :
    midRun.busy = true ∧ (⟨.pixels .dst, .read, 1, 0, 0⟩ : Txn).space = .pixels .dst ∧
      (sending ⟨.pixels .dst, .read, 1, 0, 0⟩ midRun).script = .host (.bus ⟨.pixels .dst, .read, 1, 0, 0⟩) :: [] := by decide
theorem witness_ByteReadAfterPixelWrite :
    State.reset.busy = false ∧ 60 % 4 = 0 ∧ 60 + 4 ≤ State.reset.memBytes ∧ 3 < 4 := by decide
theorem witness_ReadsHaveNoSideEffect : ∃ t, exec (.rdp .src 60) (idleWith 4 4 imageD) = .next t := ⟨_, rfl⟩
theorem witness_LumaOfANeighbour :
    midRun.imageBytes ≤ midRun.memBytes ∧ Interior midRun.width.toNat midRun.height.toNat midRun.x.toNat midRun.y.toNat ∧
      bytesAt midRun.src (pixelAddr midRun.width.toNat (midRun.x.toNat + (neighbourOffset 7).1).toNat
        (midRun.y.toNat + (neighbourOffset 7).2).toNat) 3 = [some 0x8D, some 0xA4, some 0xEA] := by decide
theorem witness_WindowSamplesNinePixels :
    midRun.imageBytes ≤ midRun.memBytes ∧ Interior midRun.width.toNat midRun.height.toNat midRun.x.toNat midRun.y.toNat ∧
      midRun.PixelWritten midRun.x.toNat midRun.y.toNat := by decide
/-- A 3×3 image without its last two bytes. -/
def shortRun : State := { runWith 3 3 (imageB.take 34) with x := 1, y := 1 }
theorem witness_WindowOfUnwrittenByteFaults :
    shortRun.imageBytes ≤ shortRun.memBytes ∧
      Interior shortRun.width.toNat shortRun.height.toNat shortRun.x.toNat shortRun.y.toNat ∧
      ¬ shortRun.PixelWritten shortRun.x.toNat shortRun.y.toNat := by decide
theorem witness_LumaOutsideImageFaults :
    ¬ (0 ≤ ((runWith 3 3 imageB).x.toNat : Int) + (neighbourOffset 0).1 ∧
      ((runWith 3 3 imageB).x.toNat : Int) + (neighbourOffset 0).1 < (runWith 3 3 imageB).width.toNat ∧
      0 ≤ ((runWith 3 3 imageB).y.toNat : Int) + (neighbourOffset 0).2 ∧
      ((runWith 3 3 imageB).y.toNat : Int) + (neighbourOffset 0).2 < (runWith 3 3 imageB).height.toNat) := by decide
theorem witness_SqsumIsTheSumOfSquares :
    let s : State := { State.reset with gx := BitVec.ofInt 11 (-1020), gy := BitVec.ofInt 11 1020 }
    (-1020 : Int) ≤ s.gx.toInt ∧ s.gx.toInt ≤ 1020 ∧ -1020 ≤ s.gy.toInt ∧ s.gy.toInt ≤ 1020 := by decide
theorem witness_PackStoresTheOutputPixel :
    midRun.imageBytes ≤ midRun.memBytes ∧ midRun.x.toNat < midRun.width.toNat ∧ midRun.y.toNat < midRun.height.toNat := by decide
theorem witness_ZfillClearsTheImageArea : midRun.width.toNat * midRun.height.toNat * 4 ≤ midRun.memBytes := by decide
theorem witness_ApplyComputesTheFilteredImage :
    (runWith 4 4 imageD).imageBytes ≤ (runWith 4 4 imageD).memBytes ∧ (runWith 4 4 imageD).SourceWritten ∧
      (runWith 4 4 imageD).busy = true := by decide
theorem witness_BorderIsTransparentBlack :
    (∃ t, exec .apply (runWith 3 3 imageB) = .next t) ∧ 2 < (runWith 3 3 imageB).width.toNat ∧
      0 < (runWith 3 3 imageB).height.toNat ∧ 3 < 4 ∧ 2 + 1 = (runWith 3 3 imageB).width.toNat := ⟨⟨_, rfl⟩, by decide⟩
theorem witness_SmallImageIsAllZero :
    let s := sending startTxn (idleWith 2 8 [])
    s.busy = false ∧ (s.width.toNat ≤ 2 ∨ s.height.toNat ≤ 2) ∧ s.imageBytes ≤ s.memBytes ∧
      s.script = [.host (.bus ⟨.reg, .write, 4, 0x00, 1⟩)] := by decide
theorem witness_EmptyImageTouchesNothing :
    let s := sending startTxn (idleWith 0 0xFFFFFFFF imageB)
    s.busy = false ∧ (s.width = 0 ∨ s.height = 0) ∧ s.script = [.host (.bus ⟨.reg, .write, 4, 0x00, 1⟩)] := by decide
/-- Two states that differ beyond the image, in DST and in DONE. -/
theorem witness_ApplyIsPure :
    let s₁ := runWith 3 3 imageB
    let s₂ : State := { runWith 3 3 (imageB ++ [1, 2]) with dst := [(0, 9)], done := true }
    (s₁.width = s₂.width ∧ s₁.height = s₂.height ∧ (∀ a, a < s₁.imageBytes → s₁.src.read a = s₂.src.read a)) ∧
      (∃ t, exec .apply s₁ = .next t) ∧ ∃ t, exec .apply s₂ = .next t := ⟨by decide, ⟨_, rfl⟩, _, rfl⟩
/-- Image B as the top left corner of a 4×4 image, with another colour in its centre. -/
def widerB : List Byte :=
  imageB.take 12 ++ [1, 2, 3, 4] ++ (imageB.drop 12).take 4 ++ [7, 7, 7, 0x14] ++ (imageB.drop 20).take 4 ++ [1, 2, 3, 4] ++
    imageB.drop 24 ++ List.replicate 20 9
theorem witness_OutputPixelIsLocal :
    let s₁ := runWith 3 3 imageB
    let s₂ := runWith 4 4 widerB
    (Interior s₁.width.toNat s₁.height.toNat 1 1 ∧ Interior s₂.width.toNat s₂.height.toNat 1 1 ∧
      (∀ i : Fin 8, ∀ k < 3,
        let u := (((1 : Nat) : Int) + (neighbourOffset i).1).toNat
        let v := (((1 : Nat) : Int) + (neighbourOffset i).2).toNat
        s₁.src.read (pixelAddr s₁.width.toNat u v + k) = s₂.src.read (pixelAddr s₂.width.toNat u v + k)) ∧
      s₁.src.read (pixelAddr s₁.width.toNat 1 1 + 3) = s₂.src.read (pixelAddr s₂.width.toNat 1 1 + 3)) ∧
      (∃ t, exec .apply s₁ = .next t) ∧ ∃ t, exec .apply s₂ = .next t := ⟨by decide, ⟨_, rfl⟩, _, rfl⟩
theorem witness_PixelOrderIsNotObservable :
    ((interiorPixels 4 4).Perm [(2, 2), (1, 2), (2, 1), (1, 1)] ∧
      ∀ p ∈ interiorPixels 4 4, Interior (runWith 4 4 imageD).width.toNat (runWith 4 4 imageD).height.toNat p.1 p.2) ∧
      ∃ t, producePixels (interiorPixels 4 4) (runWith 4 4 imageD) = .next t := ⟨by decide, _, rfl⟩
theorem witness_EngineRunRefinesApply :
    (runWith 3 3 imageB).busy = true ∧ (runWith 3 3 imageB).phase = .zfill ∧ (runWith 3 3 imageB).script = [] := by decide

/-- A state inside a run that meets the invariant. -/
theorem midRun_inv : midRun.Inv :=
  { status := by decide
    memories := by decide
    fits := by decide
    idlePhase := by decide
    scan := by decide
    stages := by decide }
theorem witness_EveryRunEnds : midRun.Inv ∧ midRun.busy = true ∧ midRun.SourceWritten ∧ midRun.script = [] :=
  ⟨midRun_inv, by decide⟩
theorem witness_EngineNeverFails : midRun.Inv ∧ midRun.busy = true ∧ midRun.SourceWritten ∧ midRun.script = [] :=
  ⟨midRun_inv, by decide⟩
theorem witness_EveryStepKeepsTheInvariant : midRun.Inv ∧ ∃ t, step midRun = .next t := ⟨midRun_inv, _, rfl⟩
/-- Image D's vector: the value GY takes in that step. -/
theorem test_step_in_a_run : (stateAfter (step midRun)).map (fun t => (t.phase, t.gy.toInt)) = some (.sqsum, -265) := by decide
theorem witness_RunDeliversTheFilteredImage :
    let s := sending startTxn (idleWith 4 4 imageD)
    s.busy = false ∧ s.imageBytes ≤ s.memBytes ∧ s.SourceWritten ∧
      s.script = [.host (.bus ⟨.reg, .write, 4, 0x00, 1⟩)] := by decide
theorem witness_RunNeverWritesSrc : midRun.busy = true ∧ ∃ t, step midRun = .next t := ⟨by decide, _, rfl⟩
theorem witness_RunWritesOnlyTheImageArea :
    midRun.busy = true ∧ (∃ t, step midRun = .next t) ∧ midRun.imageBytes ≤ 64 := ⟨by decide, ⟨_, rfl⟩, by decide⟩
theorem witness_RunEndsOnlyByCompletionOrReset :
    midRun.busy = true ∧ (∃ t, step { midRun with phase := .complete } = .next t ∧ t.busy = false) ∧
      ∃ t, step { midRun with script := [.host .reset] } = .next t ∧ t.busy = false :=
  ⟨by decide, ⟨_, rfl, rfl⟩, _, rfl, rfl⟩
theorem witness_ResultFlagsStayUntilStartOrReset :
    (idleWith 17 1 []).busy = false ∧
      ∃ t, step (sending startTxn (idleWith 17 1 [])) = .next t ∧ (t.done ≠ false ∨ t.err ≠ false) :=
  ⟨by decide, _, rfl, by decide⟩
theorem witness_CapacityIsFixed : ∃ t, step midRun = .next t := ⟨_, rfl⟩
theorem witness_NeighbourAddressOffsets : Interior 1000 666 998 664 := by decide
/-- The image with the pixels of `f`, in the layout of R50. -/
def imageOf (w h : Nat) (f : Nat → Nat → List Byte) : List Byte :=
  (List.range h).flatMap fun y => (List.range w).flatMap fun x => f x y
/-- A pixel that tells its place. -/
def placePixel (x y : Nat) : List Byte :=
  [BitVec.ofNat 8 (40 * x), BitVec.ofNat 8 (50 * y), BitVec.ofNat 8 (7 * x * y), BitVec.ofNat 8 (16 * x + y)]
theorem witness_MirroredImageMirrorsTheOutput :
    let s := runWith 4 3 (imageOf 4 3 placePixel)
    let r := runWith 4 3 (imageOf 4 3 fun x y => placePixel (3 - x) y)
    (r.width = s.width ∧ r.height = s.height ∧
      ∀ x < 4, ∀ y < 3, ∀ k < 4, r.src.read (pixelAddr 4 x y + k) = s.src.read (pixelAddr 4 (4 - 1 - x) y + k)) ∧
      (∃ t, exec .apply s = .next t) ∧ ∃ u, exec .apply r = .next u := ⟨by decide, ⟨_, rfl⟩, _, rfl⟩
theorem witness_MirroredImageMirrorsTheOutput_upside_down :
    let s := runWith 4 3 (imageOf 4 3 placePixel)
    let r := runWith 4 3 (imageOf 4 3 fun x y => placePixel x (2 - y))
    (r.width = s.width ∧ r.height = s.height ∧
      ∀ x < 4, ∀ y < 3, ∀ k < 4, r.src.read (pixelAddr 4 x y + k) = s.src.read (pixelAddr 4 x (3 - 1 - y) + k)) ∧
      (∃ t, exec .apply s = .next t) ∧ ∃ u, exec .apply r = .next u := ⟨by decide, ⟨_, rfl⟩, _, rfl⟩
theorem witness_MirroredImageMirrorsTheOutput_transposed :
    let s := runWith 4 3 (imageOf 4 3 placePixel)
    let r := runWith 3 4 (imageOf 3 4 fun x y => placePixel y x)
    (r.width = s.height ∧ r.height = s.width ∧
      ∀ x < 3, ∀ y < 4, ∀ k < 4, r.src.read (pixelAddr 3 x y + k) = s.src.read (pixelAddr 4 y x + k)) ∧
      (∃ t, exec .apply s = .next t) ∧ ∃ u, exec .apply r = .next u := ⟨by decide, ⟨_, rfl⟩, _, rfl⟩
theorem witness_NarrowingIsIdentityBelow256 : (255 : Nat) ≤ 255 := by decide

end Sys2Proof.Machine
end

section
/-! PROOF. One step of the block: whose turn it is, and the fields a step leaves alone (spec/00_scope.md R5, R11). -/

namespace Sys2Proof.Machine

/-! ## Whose turn it is -/

theorem step_of_script_nil {s : State} (h : s.script = []) : step s = engineTurn s := by
  rw [step, h]

theorem step_of_script_cons {s : State} {m : Move} {rest : List Move} (h : s.script = m :: rest) :
    step s = makeMove m { s with script := rest } := by
  rw [step, h]

theorem State.with_script_self {s : State} {rest : List Move} (h : s.script = rest) :
    { s with script := rest } = s := by
  rw [← h]

theorem perform_of_instr {d : Decoded} {i : Instr} (h : d = .instr i) (s : State) : perform d s = exec i s := by
  rw [h, perform]

theorem engineTurn_of_idle {s : State} (h : s.busy = false) : engineTurn s = .next s := by
  simp [engineTurn, h]

theorem engineTurn_of_order {s : State} {k : Nat} (hb : s.busy = true) (hk : s.phase.order = some k) :
    engineTurn s = andThen (perform (decode (.datapath k 0)) s) fun t => .next t.advance := by
  simp [engineTurn, hb, hk]

theorem engineTurn_of_no_order {s : State} (hb : s.busy = true) (hk : s.phase.order = none) :
    engineTurn s = .next s.completeRun := by
  simp [engineTurn, hb, hk]

/-- At the beginning of a run, the move engineRun is the whole of APPLY (D24). -/
theorem engineRunTurn_of_beginning {s : State} (hb : s.busy = true) (hp : s.phase = .zfill) :
    engineRunTurn s = exec .apply s := by
  rw [engineRunTurn, if_pos ⟨hb, hp⟩]
  exact perform_of_instr rfl s

theorem engineRunTurn_of_not_beginning {s : State} (h : ¬ (s.busy = true ∧ s.phase = .zfill)) :
    engineRunTurn s = engineTurn s :=
  if_neg h

/-- WAIT is over when the STATUS it reads has DONE = 1; otherwise the engine's move and WAIT come next (log 21). -/
theorem waitTurn_eq (s : State) :
    waitTurn s = .next (if s.done = true then s.answer s.statusWord
      else { s.answer s.statusWord with script := .engineOp :: .wait :: s.script }) := by
  have hread : perform (decode (encode .rdStatus)) s = .next (s.answer s.statusWord) := rfl
  rw [waitTurn, hread, andThen_of_next, State.answer_readData, State.statusWord_bit1, State.answer_script]
  split <;> rfl

/-- The three ways the engine gets its turn for one operation: its own move, the empty script, and engineRun past
the beginning of a run. -/
theorem step_eq_engineTurn {s : State} {rest : List Move}
    (h : s.script = .engineOp :: rest ∨ (s.script = [] ∧ rest = []) ∨
      (s.script = .engineRun :: rest ∧ ¬ (s.busy = true ∧ s.phase = .zfill))) :
    step s = engineTurn { s with script := rest } := by
  obtain hop | ⟨hnil, rfl⟩ | ⟨hrun, hlater⟩ := h
  · rw [step_of_script_cons hop, makeMove]
  · rw [step_of_script_nil hnil, State.with_script_self hnil]
  · rw [step_of_script_cons hrun, makeMove]
    exact engineRunTurn_of_not_beginning hlater

/-! ## What an operation leaves alone -/

/-- `r`, an outcome reached from `s`, leaves the value of `f` as it was, if it answers a next state. -/
def Keeps {α : Type} (f : State → α) (s : State) (r : Result) : Prop :=
  ∀ t, r = .next t → f t = f s

section
variable {α : Type} {f : State → α} {s : State}

theorem Keeps.next {t : State} (h : f t = f s) : Keeps f s (.next t) := by
  rintro _ ⟨⟩
  exact h

theorem Keeps.fault (e : Fault) : Keeps f s (.fault e) := by
  rintro _ ⟨⟩

theorem Keeps.refused (e : Refusal) : Keeps f s (.refused e) := by
  rintro _ ⟨⟩

theorem Keeps.andThen {r : Result} {g : State → Result} (hr : Keeps f s r) (hg : ∀ t, Keeps f t (g t)) :
    Keeps f s (andThen r g) := by
  intro u hu
  obtain ⟨t, ht, hu⟩ := andThen_eq_next.mp hu
  exact (hg t u hu).trans (hr t ht)

theorem Keeps.hostAccess {m : PixelMem} {a k : Nat} {r : Result} (hr : Keeps f s r) :
    Keeps f s (s.hostAccess m a k r) := by
  intro t ht
  obtain ⟨-, -, ht⟩ := State.hostAccess_eq_next.mp ht
  exact hr t ht

theorem Keeps.aligned {a : Nat} {r : Result} (hr : Keeps f s r) : Keeps f s (aligned a r) :=
  fun t ht => hr t (aligned_eq_next.mp ht).2

end

/-- A read's answer leaves alone whatever does not depend on `readData`. -/
theorem keeps_answer {α β : Type} {f : State → α} {s : State} {g : β → Word} (h : ∀ v, f (s.answer v) = f s)
    (e : Except Fault β) : Keeps f s (ofExcept (e.map fun v => s.answer (g v))) := by
  cases e with
  | error e => exact Keeps.fault e
  | ok v => exact Keeps.next (h (g v))

/-- The state with a fixed value in each field that a datapath operation or the sequencer writes, so that two states
with the same `hostSide` agree in the registers, SRC, the capacity and the model's fields other than `phase`. -/
def State.hostSide (s : State) : State :=
  { s with
    dst := []
    x := 0
    y := 0
    n := ⟨0, 0, 0, 0, 0, 0, 0, 0⟩
    alpha := 0
    gx := 0
    gy := 0
    ss := 0
    root := 0
    mag := 0
    phase := .zfill }

@[simp] theorem State.hostSide_memPixels (s : State) : s.hostSide.memPixels = s.memPixels := rfl

theorem State.memPixels_eq_of_hostSide {s t : State} (h : t.hostSide = s.hostSide) : t.memPixels = s.memPixels := by
  rw [← t.hostSide_memPixels, h, s.hostSide_memPixels]

theorem Keeps.memPixels_of_hostSide {s : State} {r : Result} (h : Keeps State.hostSide s r) :
    Keeps State.memPixels s r :=
  fun t ht => State.memPixels_eq_of_hostSide (h t ht)

theorem State.zeroImage_keeps_hostSide (s : State) : Keeps State.hostSide s s.zeroImage := by
  intro t ht
  obtain ⟨-, rfl⟩ := State.zeroImage_eq_next.mp ht
  rfl

theorem State.sample_keeps_hostSide (s : State) (i : Fin 8) : Keeps State.hostSide s (s.sample i) := by
  intro t ht
  obtain ⟨v, -, rfl⟩ := State.sample_eq_next.mp ht
  rfl

theorem State.fillWindow_keeps_hostSide (s : State) : Keeps State.hostSide s s.fillWindow := by
  intro t ht
  obtain ⟨-, -, ht⟩ := State.fillWindow_eq_next.mp ht
  rw [ht]
  rfl

theorem State.packPixel_keeps_hostSide (s : State) : Keeps State.hostSide s s.packPixel := by
  intro t ht
  obtain ⟨-, -, -, rfl⟩ := State.storePixel_eq_next.mp ht
  rfl

/-- The scan position and the stage values that `producePixel` writes on the way are no part of `hostSide`. -/
theorem producePixel_keeps_hostSide (p : Nat × Nat) (s : State) : Keeps State.hostSide s (producePixel p s) := by
  intro u hu
  obtain ⟨t, ht, hu⟩ := andThen_eq_next.mp hu
  calc u.hostSide
    _ = t.computeGx.computeGy.computeSs.computeRoot.computeMag.hostSide := State.packPixel_keeps_hostSide _ u hu
    _ = t.hostSide := by simp [State.hostSide]
    _ = ({ s with x := BitVec.ofNat 32 p.1, y := BitVec.ofNat 32 p.2 } : State).hostSide :=
      State.fillWindow_keeps_hostSide _ t ht
    _ = s.hostSide := rfl

theorem producePixels_keeps_hostSide (ps : List (Nat × Nat)) (s : State) :
    Keeps State.hostSide s (producePixels ps s) := by
  induction ps generalizing s with
  | nil => exact Keeps.next rfl
  | cons p ps ih => exact Keeps.andThen (producePixel_keeps_hostSide p s) ih

theorem execApply_keeps_hostSide (s : State) : Keeps State.hostSide s (execApply s) :=
  s.zeroImage_keeps_hostSide.andThen fun t =>
    (producePixels_keeps_hostSide _ t).andThen fun _ => Keeps.next rfl

@[simp] theorem State.scanTo_hostSide (s : State) (p : Option (Word × Word)) :
    (s.scanTo p).hostSide = s.hostSide := by
  cases p <;> rfl

@[simp] theorem State.advance_hostSide (s : State) : s.advance.hostSide = s.hostSide := by
  unfold State.advance
  cases s.phase with
  | zfill => exact s.scanTo_hostSide _
  | pack => exact s.scanTo_hostSide _
  | window | gx | gy | sqsum | root | narrow | complete => rfl

/-! ## The capacity of the memories (log 4) -/

@[simp] theorem State.advance_memPixels (s : State) : s.advance.memPixels = s.memPixels :=
  State.memPixels_eq_of_hostSide s.advance_hostSide

@[simp] theorem State.start_memPixels (s : State) : s.start.memPixels = s.memPixels := by
  unfold State.start
  split <;> rfl

theorem execWrCtrl_keeps_memPixels (v : Word) (s : State) : Keeps State.memPixels s (execWrCtrl v s) := by
  unfold execWrCtrl
  split
  · exact Keeps.next s.start_memPixels
  · exact Keeps.next rfl

theorem execWrWidth_keeps_memPixels (v : Word) (s : State) : Keeps State.memPixels s (execWrWidth v s) := by
  unfold execWrWidth
  split <;> exact Keeps.next rfl

theorem execWrHeight_keeps_memPixels (v : Word) (s : State) : Keeps State.memPixels s (execWrHeight v s) := by
  unfold execWrHeight
  split <;> exact Keeps.next rfl

theorem execReset_keeps_memPixels (s : State) : Keeps State.memPixels s (execReset s) := by
  refine Keeps.next ?_
  show (if s.busy then s.abandonImage else s).memPixels = s.memPixels
  split <;> rfl

theorem exec_keeps_memPixels (i : Instr) (s : State) : Keeps State.memPixels s (exec i s) := by
  cases i with
  | apply => exact (execApply_keeps_hostSide s).memPixels_of_hostSide
  | zfill => exact s.zeroImage_keeps_hostSide.memPixels_of_hostSide
  | window => exact s.fillWindow_keeps_hostSide.memPixels_of_hostSide
  | luma i => exact (s.sample_keeps_hostSide i).memPixels_of_hostSide
  | pack => exact s.packPixel_keeps_hostSide.memPixels_of_hostSide
  | gx | gy | sqsum | root | narrow => exact Keeps.next rfl
  | rdCtrl | rdStatus | wrStatus | rdWidth | rdHeight => exact Keeps.next rfl
  | wrCtrl v => exact execWrCtrl_keeps_memPixels v s
  | wrWidth v => exact execWrWidth_keeps_memPixels v s
  | wrHeight v => exact execWrHeight_keeps_memPixels v s
  | wrb m a v => exact (Keeps.next (s.setMem_memPixels m _)).hostAccess
  | wrp m a v => exact (Keeps.next (s.setMem_memPixels m _)).hostAccess.aligned
  | rdb m a => exact (keeps_answer s.answer_memPixels _).hostAccess
  | rdp m a => exact (keeps_answer s.answer_memPixels _).hostAccess.aligned
  | reset => exact execReset_keeps_memPixels s

theorem perform_keeps_memPixels (d : Decoded) (s : State) : Keeps State.memPixels s (perform d s) := by
  cases d with
  | instr i => exact exec_keeps_memPixels i s
  | unmappedRead => exact Keeps.next rfl
  | unmappedWrite => exact Keeps.next rfl
  | rejected r => exact Keeps.refused _

theorem engineTurn_keeps_memPixels (s : State) : Keeps State.memPixels s (engineTurn s) := by
  cases hb : s.busy with
  | false =>
    rw [engineTurn_of_idle hb]
    exact Keeps.next rfl
  | true =>
    cases hk : s.phase.order with
    | none =>
      rw [engineTurn_of_no_order hb hk]
      exact Keeps.next rfl
    | some k =>
      rw [engineTurn_of_order hb hk]
      exact (perform_keeps_memPixels _ s).andThen fun t => Keeps.next t.advance_memPixels

theorem engineRunTurn_keeps_memPixels (s : State) : Keeps State.memPixels s (engineRunTurn s) := by
  by_cases h : s.busy = true ∧ s.phase = .zfill
  · rw [engineRunTurn_of_beginning h.1 h.2]
    exact exec_keeps_memPixels .apply s
  · rw [engineRunTurn_of_not_beginning h]
    exact engineTurn_keeps_memPixels s

theorem waitTurn_keeps_memPixels (s : State) : Keeps State.memPixels s (waitTurn s) := by
  rw [waitTurn_eq]
  split <;> exact Keeps.next rfl

theorem makeMove_keeps_memPixels (m : Move) (s : State) : Keeps State.memPixels s (makeMove m s) := by
  cases m with
  | host h => exact perform_keeps_memPixels _ s
  | wait => exact waitTurn_keeps_memPixels s
  | engineOp => exact engineTurn_keeps_memPixels s
  | engineRun => exact engineRunTurn_keeps_memPixels s

theorem step_keeps_memPixels (s : State) : Keeps State.memPixels s (step s) := by
  cases hs : s.script with
  | nil =>
    rw [step_of_script_nil hs]
    exact engineTurn_keeps_memPixels s
  | cons m rest =>
    rw [step_of_script_cons hs]
    exact makeMove_keeps_memPixels m { s with script := rest }

/-! ## The obligations of spec/00_scope.md -/

/-- Settles O56: every operation, and so every move of either agent, keeps the capacity. -/
theorem capacityIsFixed : Obligations.CapacityIsFixed :=
  step_keeps_memPixels

/-- Settles O7: each of the three ways to a turn is `engineTurn`, and engineRun at the beginning is APPLY. -/
theorem engineTurnRunsItsOperation : Obligations.EngineTurnRunsItsOperation := by
  intro s rest hb
  constructor
  · intro k i hmove hk hi
    have hturn : step s = engineTurn { s with script := rest } :=
      step_eq_engineTurn (hmove.imp_right (Or.imp_right (And.imp_right fun hp h => hp h.2)))
    rw [hturn, ← perform_of_instr hi]
    exact engineTurn_of_order hb hk
  · intro hrun hp
    rw [step_of_script_cons hrun, makeMove]
    exact engineRunTurn_of_beginning hb hp

/-- Settles O8: an idle engine's turn answers the same state, also where the move is engineRun. -/
theorem idleEngineTakesNoStep : Obligations.IdleEngineTakesNoStep := by
  intro s rest hb
  have hidle : ¬ (s.busy = true ∧ s.phase = .zfill) := by simp [hb]
  constructor
  · intro hnil
    rw [step_of_script_nil hnil, engineTurn_of_idle hb]
  · intro hmove
    have hturn : step s = engineTurn { s with script := rest } :=
      step_eq_engineTurn (hmove.imp_right fun hrun => .inr ⟨hrun, hidle⟩)
    exact hturn.trans (engineTurn_of_idle hb)

end Sys2Proof.Machine
end

section
/-! PROOF. What a run may write: DST below W*H*4 (spec/10_state.md R32, spec/70_reset_and_hazards.md R219). -/

namespace Sys2Proof.Machine

/-! ## Bytes written below a bound -/

/-- `d` is what writes below address `k` may make of `c`: the canonical form is kept, no new address is at or above `k`,
and no byte there has changed. -/
structure Memory.WrittenBelow (c : Memory) (k : Nat) (d : Memory) : Prop where
  wf : c.wf → d.wf
  mem : ∀ e ∈ d, e.1 < k ∨ e ∈ c
  read : ∀ a, k ≤ a → d.read a = c.read a

namespace Memory.WrittenBelow

variable {c d e : Memory} {j k : Nat}

theorem refl : c.WrittenBelow k c :=
  ⟨id, fun _ => .inr, fun _ _ => rfl⟩

theorem trans (h : c.WrittenBelow k d) (h' : d.WrittenBelow k e) : c.WrittenBelow k e where
  wf := h'.wf ∘ h.wf
  mem x hx := (h'.mem x hx).elim .inl (h.mem x)
  read a ha := (h'.read a ha).trans (h.read a ha)

theorem mono (h : c.WrittenBelow j d) (hjk : j ≤ k) : c.WrittenBelow k d where
  wf := h.wf
  mem x hx := (h.mem x hx).imp_left (lt_of_lt_of_le · hjk)
  read a ha := h.read a (hjk.trans ha)

theorem write {a : Nat} (v : Byte) (h : a < k) : c.WrittenBelow k (c.write a v) where
  wf := c.wf_write a v
  mem x hx := (c.mem_write a v x hx).imp_left fun hx => by rw [hx]; exact h
  read b hb := c.read_write_other v (by omega)

theorem writeWord {a : Nat} (v : Word) (h : a + 4 ≤ k) : c.WrittenBelow k (c.writeWord a v) where
  wf := c.wf_writeWord a v
  mem x hx := (c.mem_writeWord a v x hx).imp_left fun hx => by omega
  read b hb := by rw [c.read_writeWord, if_neg (by omega)]

theorem setPrefix (f : Nat → Byte) : c.WrittenBelow k (c.setPrefix k f) where
  wf := c.wf_setPrefix k f
  mem x hx := (c.mem_setPrefix k f x hx).imp_right And.right
  read a ha := by rw [c.read_setPrefix, if_neg (by omega)]

/-- Writes inside the memory list no address outside it. -/
theorem addresses_lt (h : c.WrittenBelow k d) {n : Nat} (hk : k ≤ n) (hc : ∀ x ∈ c, x.1 < n) :
    ∀ x ∈ d, x.1 < n :=
  fun x hx => (h.mem x hx).elim (lt_of_lt_of_le · hk) (hc x)

end Memory.WrittenBelow

/-! ## What a datapath operation and the sequencer keep -/

/-- R50: the four bytes of a pixel of the image are in the image area. -/
theorem pixelAddr_add_four_le {w h x y : Nat} (hx : x < w) (hy : y < h) : pixelAddr w x y + 4 ≤ w * h * 4 := by
  have hrow : (y + 1) * w ≤ h * w := Nat.mul_le_mul_right w hy
  have hpixel : y * w + x + 1 ≤ w * h := by
    rw [Nat.add_mul, Nat.one_mul] at hrow
    rw [Nat.mul_comm w h]
    omega
  unfold pixelAddr
  omega

@[simp] theorem State.hostSide_width (s : State) : s.hostSide.width = s.width := rfl
@[simp] theorem State.hostSide_height (s : State) : s.hostSide.height = s.height := rfl
@[simp] theorem State.hostSide_busy (s : State) : s.hostSide.busy = s.busy := rfl
@[simp] theorem State.hostSide_done (s : State) : s.hostSide.done = s.done := rfl
@[simp] theorem State.hostSide_err (s : State) : s.hostSide.err = s.err := rfl
@[simp] theorem State.hostSide_src (s : State) : s.hostSide.src = s.src := rfl

section
variable {s t : State}

theorem State.width_eq_of_hostSide (h : t.hostSide = s.hostSide) : t.width = s.width := by
  rw [← t.hostSide_width, h, s.hostSide_width]

theorem State.height_eq_of_hostSide (h : t.hostSide = s.hostSide) : t.height = s.height := by
  rw [← t.hostSide_height, h, s.hostSide_height]

theorem State.busy_eq_of_hostSide (h : t.hostSide = s.hostSide) : t.busy = s.busy := by
  rw [← t.hostSide_busy, h, s.hostSide_busy]

theorem State.done_eq_of_hostSide (h : t.hostSide = s.hostSide) : t.done = s.done := by
  rw [← t.hostSide_done, h, s.hostSide_done]

theorem State.err_eq_of_hostSide (h : t.hostSide = s.hostSide) : t.err = s.err := by
  rw [← t.hostSide_err, h, s.hostSide_err]

theorem State.src_eq_of_hostSide (h : t.hostSide = s.hostSide) : t.src = s.src := by
  rw [← t.hostSide_src, h, s.hostSide_src]

theorem State.imageBytes_eq_of_hostSide (h : t.hostSide = s.hostSide) : t.imageBytes = s.imageBytes := by
  rw [State.imageBytes, State.width_eq_of_hostSide h, State.height_eq_of_hostSide h, State.imageBytes]

theorem State.memBytes_eq_of_hostSide (h : t.hostSide = s.hostSide) : t.memBytes = s.memBytes := by
  rw [State.memBytes, State.memPixels_eq_of_hostSide h, State.memBytes]

theorem State.zeroImage_writes_image (h : s.zeroImage = .next t) : s.dst.WrittenBelow s.imageBytes t.dst := by
  obtain ⟨-, rfl⟩ := State.zeroImage_eq_next.mp h
  exact .setPrefix _

theorem State.storePixel_writes_image {v : Word} (h : s.storePixel v = .next t) :
    s.dst.WrittenBelow s.imageBytes t.dst := by
  obtain ⟨hx, hy, -, rfl⟩ := State.storePixel_eq_next.mp h
  exact .writeWord v (pixelAddr_add_four_le hx hy)

theorem State.packPixel_writes_image (h : s.packPixel = .next t) : s.dst.WrittenBelow s.imageBytes t.dst :=
  State.storePixel_writes_image h

theorem State.fillWindow_dst (h : s.fillWindow = .next t) : t.dst = s.dst := by
  obtain ⟨-, -, ht⟩ := State.fillWindow_eq_next.mp h
  rw [ht]

theorem producePixel_writes_image {p : Nat × Nat} (h : producePixel p s = .next t) :
    s.dst.WrittenBelow s.imageBytes t.dst := by
  obtain ⟨u, hu, ht⟩ := andThen_eq_next.mp h
  have hside := State.fillWindow_keeps_hostSide _ u hu
  have hwidth : u.width = s.width := (State.width_eq_of_hostSide hside).trans rfl
  have hheight : u.height = s.height := (State.height_eq_of_hostSide hside).trans rfl
  have hdst : u.dst = s.dst := (State.fillWindow_dst hu).trans rfl
  simpa [State.imageBytes, hwidth, hheight, hdst] using State.packPixel_writes_image ht

theorem producePixels_writes_image {ps : List (Nat × Nat)} (h : producePixels ps s = .next t) :
    s.dst.WrittenBelow s.imageBytes t.dst := by
  induction ps generalizing s with
  | nil =>
    cases h
    exact .refl
  | cons p ps ih =>
    obtain ⟨u, hu, ht⟩ := andThen_eq_next.mp h
    have himage : u.imageBytes = s.imageBytes :=
      State.imageBytes_eq_of_hostSide (producePixel_keeps_hostSide p s u hu)
    exact (producePixel_writes_image hu).trans (himage ▸ ih ht)

theorem execApply_writes_image (h : execApply s = .next t) : s.dst.WrittenBelow s.imageBytes t.dst := by
  obtain ⟨u, hu, ht⟩ := andThen_eq_next.mp h
  obtain ⟨v, hv, ht⟩ := andThen_eq_next.mp ht
  have himage : u.imageBytes = s.imageBytes :=
    State.imageBytes_eq_of_hostSide (s.zeroImage_keeps_hostSide u hu)
  have hpixels : u.dst.WrittenBelow s.imageBytes v.dst := himage ▸ producePixels_writes_image hv
  cases ht
  exact (State.zeroImage_writes_image hu).trans hpixels

/-- After APPLY only completion remains (R100, R180). -/
theorem execApply_phase (h : execApply s = .next t) : t.phase = .complete := by
  obtain ⟨u, -, ht⟩ := andThen_eq_next.mp h
  obtain ⟨v, -, ht⟩ := andThen_eq_next.mp ht
  cases ht
  rfl

end

@[simp] theorem State.scanTo_dst (s : State) (p : Option (Word × Word)) : (s.scanTo p).dst = s.dst := by
  cases p <;> rfl

end Sys2Proof.Machine
end

section
/-! PROOF. Everything a step can do, each effect with the guards under which the block allows it
(spec/00_scope.md R11, spec/44_host_commands.md R170 to R181). -/

namespace Sys2Proof.Machine

/-! ## The host's inputs -/

/-- What host input `h` does to state `s`, where it is neither refused nor faults: `HostEffect.of_perform` says that there is
nothing else. A guard is stated where the block has one. -/
inductive HostEffect (h : HostInput) (s : State) : State → Prop
  /-- A read of any space (R57, R173, R176, R177, R179, R181). -/
  | answered (v : Word) : HostEffect h s (s.answer v)
  /-- A write that is dropped (R172, R175, R177, R181). -/
  | ignored : HostEffect h s s
  /-- R174. -/
  | started {v : Word} (hd : decode (.host h) = .instr (.wrCtrl v)) (hv : v.getLsbD 0 = true) (hb : s.busy = false) :
      HostEffect h s s.start
  /-- R172. -/
  | resized (hb : s.busy = false) (w w' : Word) : HostEffect h s { s with width := w, height := w' }
  /-- R178. -/
  | stored {m : PixelMem} {c : Memory} (hb : s.busy = false) (hc : (s.mem m).WrittenBelow s.memBytes c) :
      HostEffect h s (s.setMem m c)
  /-- R210, R211. -/
  | reset {t : State} (hr : h = .reset) (ht : execReset s = .next t) : HostEffect h s t

/-- An operation that the host can select is the reset input, or one whose own selector is a bus transaction. -/
theorem encode_of_decode_host {h : HostInput} {i : Instr} (hd : decode (.host h) = .instr i) :
    (h = .reset ∧ i = .reset) ∨ ∃ t, encode i = .host (.bus t) := by
  cases h with
  | reset =>
    cases hd
    exact .inl ⟨rfl, rfl⟩
  | bus t =>
    obtain ⟨space, dir, width, addr, data⟩ := t
    refine .inr ?_
    cases space with
    | reg =>
      simp only [decode, decodeReg] at hd
      split at hd
      · cases hd
      split at hd
      · cases hd
      split at hd <;> cases hd <;> exact ⟨_, rfl⟩
    | pixels m =>
      simp only [decode, decodeMem] at hd
      split at hd
      · cases dir <;> cases hd <;> exact ⟨_, rfl⟩
      split at hd
      · split at hd
        · cases hd
        cases dir <;> cases hd <;> exact ⟨_, rfl⟩
      · cases hd

section
variable {h : HostInput} {s t : State}

theorem HostEffect.of_wrCtrl {v : Word} (hd : decode (.host h) = .instr (.wrCtrl v)) (ht : execWrCtrl v s = .next t) :
    HostEffect h s t := by
  unfold execWrCtrl at ht
  split at ht
  · rename_i hstart
    cases ht
    exact .started hd hstart.1 hstart.2
  · cases ht
    exact .ignored

theorem HostEffect.of_wrWidth {v : Word} (ht : execWrWidth v s = .next t) : HostEffect h s t := by
  unfold execWrWidth at ht
  split at ht
  · cases ht
    exact .ignored
  · rename_i hb
    cases ht
    exact .resized (Bool.eq_false_iff.mpr hb) v s.height

theorem HostEffect.of_wrHeight {v : Word} (ht : execWrHeight v s = .next t) : HostEffect h s t := by
  unfold execWrHeight at ht
  split at ht
  · cases ht
    exact .ignored
  · rename_i hb
    cases ht
    exact .resized (Bool.eq_false_iff.mpr hb) s.width v

theorem HostEffect.of_wrb {m : PixelMem} {a : Nat} {v : Byte} (ht : execWrb m a v s = .next t) : HostEffect h s t := by
  obtain ⟨hb, ha, ht⟩ := State.hostAccess_eq_next.mp ht
  cases ht
  exact .stored hb (.write v ha)

theorem HostEffect.of_wrp {m : PixelMem} {a : Nat} {v : Word} (ht : execWrp m a v s = .next t) : HostEffect h s t := by
  obtain ⟨-, ht⟩ := aligned_eq_next.mp ht
  obtain ⟨hb, ha, ht⟩ := State.hostAccess_eq_next.mp ht
  cases ht
  exact .stored hb (.writeWord v ha)

theorem HostEffect.of_answer {α : Type} {e : Except Fault α} {g : α → Word}
    (ht : ofExcept (e.map fun v => s.answer (g v)) = .next t) : HostEffect h s t := by
  cases e with
  | error e => cases ht
  | ok v =>
    cases ht
    exact .answered (g v)

theorem HostEffect.of_rdb {m : PixelMem} {a : Nat} (ht : execRdb m a s = .next t) : HostEffect h s t := by
  obtain ⟨-, -, ht⟩ := State.hostAccess_eq_next.mp ht
  exact .of_answer ht

theorem HostEffect.of_rdp {m : PixelMem} {a : Nat} (ht : execRdp m a s = .next t) : HostEffect h s t := by
  obtain ⟨-, ht⟩ := aligned_eq_next.mp ht
  obtain ⟨-, -, ht⟩ := State.hostAccess_eq_next.mp ht
  exact .of_answer ht

/-- The host selects no datapath operation (R66, R171), so an operation that it does select has one of these effects. -/
theorem HostEffect.of_exec {i : Instr} (hd : decode (.host h) = .instr i) (ht : exec i s = .next t) :
    HostEffect h s t := by
  obtain ⟨rfl, rfl⟩ | ⟨u, hu⟩ := encode_of_decode_host hd
  · exact .reset rfl ht
  cases i with
  | apply | zfill | window | luma | gx | gy | sqsum | root | narrow | pack | reset => cases hu
  | rdCtrl | rdStatus | rdWidth | rdHeight =>
    cases ht
    exact .answered _
  | wrStatus v =>
    cases ht
    exact .ignored
  | wrCtrl v => exact .of_wrCtrl hd ht
  | wrWidth v => exact .of_wrWidth ht
  | wrHeight v => exact .of_wrHeight ht
  | wrb m a v => exact .of_wrb ht
  | rdb m a => exact .of_rdb ht
  | wrp m a v => exact .of_wrp ht
  | rdp m a => exact .of_rdp ht

theorem HostEffect.of_perform (ht : perform (decode (.host h)) s = .next t) : HostEffect h s t := by
  cases hd : decode (.host h) with
  | instr i =>
    rw [hd] at ht
    exact .of_exec hd ht
  | unmappedRead =>
    rw [hd] at ht
    cases ht
    exact .answered 0
  | unmappedWrite =>
    rw [hd] at ht
    cases ht
    exact .ignored
  | rejected r =>
    rw [hd] at ht
    cases ht

end

/-! ## The engine's operations -/

/-- What the engine's turn does in a run, phase by phase, the sequencer's advance included (R104, R180). -/
inductive EngineEffect (s : State) : State → Prop
  /-- R101, then the first scan position. -/
  | zfill {t : State} (hp : s.phase = .zfill) (ht : s.zeroImage = .next t) : EngineEffect s (t.scanTo t.firstPixel)
  /-- R131. -/
  | window {n : Window} {a : Byte} (hp : s.phase = .window) (hn : ∀ i, s.neighbourLuma i = .ok (n.get i))
      (ha : s.channel s.x.toNat s.y.toNat 3 = .ok a) : EngineEffect s { s with n := n, alpha := a, phase := .gx }
  /-- R133. -/
  | gx (hp : s.phase = .gx) : EngineEffect s { s.computeGx with phase := .gy }
  /-- R134. -/
  | gy (hp : s.phase = .gy) : EngineEffect s { s.computeGy with phase := .sqsum }
  /-- R150. -/
  | sqsum (hp : s.phase = .sqsum) : EngineEffect s { s.computeSs with phase := .root }
  /-- R153. -/
  | root (hp : s.phase = .root) : EngineEffect s { s.computeRoot with phase := .narrow }
  /-- R157. -/
  | narrow (hp : s.phase = .narrow) : EngineEffect s { s.computeMag with phase := .pack }
  /-- R159, then the next scan position. -/
  | pack {t : State} (hp : s.phase = .pack) (ht : s.packPixel = .next t) : EngineEffect s (t.scanTo t.nextPixel)
  /-- R180. -/
  | complete (hp : s.phase = .complete) : EngineEffect s s.completeRun

section
variable {s t : State}

theorem State.advance_of_zfill (h : s.phase = .zfill) : s.advance = s.scanTo s.firstPixel := by
  rw [State.advance, h]

theorem State.advance_of_window (h : s.phase = .window) : s.advance = { s with phase := .gx } := by
  rw [State.advance, h]

theorem State.advance_of_gx (h : s.phase = .gx) : s.advance = { s with phase := .gy } := by
  rw [State.advance, h]

theorem State.advance_of_gy (h : s.phase = .gy) : s.advance = { s with phase := .sqsum } := by
  rw [State.advance, h]

theorem State.advance_of_sqsum (h : s.phase = .sqsum) : s.advance = { s with phase := .root } := by
  rw [State.advance, h]

theorem State.advance_of_root (h : s.phase = .root) : s.advance = { s with phase := .narrow } := by
  rw [State.advance, h]

theorem State.advance_of_narrow (h : s.phase = .narrow) : s.advance = { s with phase := .pack } := by
  rw [State.advance, h]

theorem State.advance_of_pack (h : s.phase = .pack) : s.advance = s.scanTo s.nextPixel := by
  rw [State.advance, h]

theorem State.zeroImage_phase (h : s.zeroImage = .next t) : t.phase = s.phase := by
  obtain ⟨-, rfl⟩ := State.zeroImage_eq_next.mp h
  rfl

theorem State.packPixel_phase (h : s.packPixel = .next t) : t.phase = s.phase := by
  obtain ⟨-, -, -, rfl⟩ := State.storePixel_eq_next.mp h
  rfl

theorem exec_of_engineTurn {k : Nat} {i : Instr} (hb : s.busy = true) (hk : s.phase.order = some k)
    (hi : decode (.datapath k 0) = .instr i) (ht : engineTurn s = .next t) :
    ∃ u, exec i s = .next u ∧ t = u.advance := by
  rw [engineTurn_of_order hb hk, perform_of_instr hi] at ht
  obtain ⟨u, hu, ht⟩ := andThen_eq_next.mp ht
  cases ht
  exact ⟨u, hu, rfl⟩

theorem EngineEffect.of_engineTurn (hb : s.busy = true) (ht : engineTurn s = .next t) : EngineEffect s t := by
  cases hp : s.phase with
  | zfill =>
    obtain ⟨u, hu, rfl⟩ := exec_of_engineTurn (i := .zfill) hb (congrArg Phase.order hp) rfl ht
    rw [State.advance_of_zfill ((State.zeroImage_phase hu).trans hp)]
    exact .zfill hp hu
  | window =>
    obtain ⟨u, hu, rfl⟩ := exec_of_engineTurn (i := .window) hb (congrArg Phase.order hp) rfl ht
    obtain ⟨hn, ha, hu⟩ := State.fillWindow_eq_next.mp hu
    rw [hu, State.advance_of_window (s := { s with n := u.n, alpha := u.alpha }) hp]
    exact .window hp hn ha
  | gx =>
    obtain ⟨u, hu, rfl⟩ := exec_of_engineTurn (i := .gx) hb (congrArg Phase.order hp) rfl ht
    cases hu
    rw [State.advance_of_gx (s := s.computeGx) hp]
    exact .gx hp
  | gy =>
    obtain ⟨u, hu, rfl⟩ := exec_of_engineTurn (i := .gy) hb (congrArg Phase.order hp) rfl ht
    cases hu
    rw [State.advance_of_gy (s := s.computeGy) hp]
    exact .gy hp
  | sqsum =>
    obtain ⟨u, hu, rfl⟩ := exec_of_engineTurn (i := .sqsum) hb (congrArg Phase.order hp) rfl ht
    cases hu
    rw [State.advance_of_sqsum (s := s.computeSs) hp]
    exact .sqsum hp
  | root =>
    obtain ⟨u, hu, rfl⟩ := exec_of_engineTurn (i := .root) hb (congrArg Phase.order hp) rfl ht
    cases hu
    rw [State.advance_of_root (s := s.computeRoot) hp]
    exact .root hp
  | narrow =>
    obtain ⟨u, hu, rfl⟩ := exec_of_engineTurn (i := .narrow) hb (congrArg Phase.order hp) rfl ht
    cases hu
    rw [State.advance_of_narrow (s := s.computeMag) hp]
    exact .narrow hp
  | pack =>
    obtain ⟨u, hu, rfl⟩ := exec_of_engineTurn (i := .pack) hb (congrArg Phase.order hp) rfl ht
    rw [State.advance_of_pack ((State.packPixel_phase hu).trans hp)]
    exact .pack hp hu
  | complete =>
    rw [engineTurn_of_no_order hb (congrArg Phase.order hp)] at ht
    cases ht
    exact .complete hp

end

/-! ## The step -/

/-- What one step does: whose move it is, and the move's effect once it is off the script (log 2). -/
inductive StepEffect (s t : State) : Prop
  | host (h : HostInput) (rest : List Move) (hs : s.script = .host h :: rest)
      (he : HostEffect h { s with script := rest } t)
  /-- WAIT reads STATUS (log 21). -/
  | wait (v : Word) (l : List Move) (ht : t = { s with readData := v, script := l })
  /-- R171: the engine has no step to take. -/
  | idle (rest : List Move) (hb : s.busy = false) (ht : t = { s with script := rest })
  | engine (rest : List Move) (hb : s.busy = true) (he : EngineEffect { s with script := rest } t)
  /-- D24: the whole of APPLY, at the beginning of a run. -/
  | apply (rest : List Move) (hb : s.busy = true) (ht : execApply { s with script := rest } = .next t)

section
variable {s t : State} {rest : List Move}

theorem StepEffect.of_engineTurn (ht : engineTurn { s with script := rest } = .next t) : StepEffect s t := by
  cases hb : s.busy with
  | false =>
    rw [engineTurn_of_idle (s := { s with script := rest }) hb] at ht
    cases ht
    exact .idle rest hb rfl
  | true => exact .engine rest hb (.of_engineTurn hb ht)

theorem StepEffect.of_engineRunTurn (ht : engineRunTurn { s with script := rest } = .next t) : StepEffect s t := by
  by_cases hbegin : s.busy = true ∧ s.phase = .zfill
  · rw [engineRunTurn_of_beginning (s := { s with script := rest }) hbegin.1 hbegin.2] at ht
    exact .apply rest hbegin.1 ht
  · rw [engineRunTurn_of_not_beginning (s := { s with script := rest }) hbegin] at ht
    exact .of_engineTurn ht

theorem StepEffect.of_waitTurn (ht : waitTurn { s with script := rest } = .next t) : StepEffect s t := by
  rw [waitTurn_eq] at ht
  split at ht <;> cases ht <;> exact .wait _ _ rfl

theorem StepEffect.of_step (ht : step s = .next t) : StepEffect s t := by
  cases hs : s.script with
  | nil =>
    rw [step_of_script_nil hs, ← State.with_script_self hs] at ht
    exact .of_engineTurn ht
  | cons m rest =>
    rw [step_of_script_cons hs] at ht
    cases m with
    | host h => exact .host h rest hs (.of_perform ht)
    | wait => exact .of_waitTurn ht
    | engineOp => exact .of_engineTurn ht
    | engineRun => exact .of_engineRunTurn ht

end

end Sys2Proof.Machine
end

section
/-! PROOF. The arithmetic of the stage values: nothing is lost in the widths of R30
(spec/42_gradient.md R133 to R136, spec/43_magnitude.md R150 to R157). -/

namespace Sys2Proof.Machine

/-- R136: each gradient is in -1020 to 1020. -/
theorem gradX_bounds (n : Window) : -1020 ≤ gradX n ∧ gradX n ≤ 1020 := by
  have hlo (b : Byte) : -128 ≤ b.toInt := b.le_toInt
  have hhi (b : Byte) : b.toInt < 128 := b.toInt_lt
  have h0 := hlo n.n0; have h0' := hhi n.n0
  have h2 := hlo n.n2; have h2' := hhi n.n2
  have h3 := hlo n.n3; have h3' := hhi n.n3
  have h4 := hlo n.n4; have h4' := hhi n.n4
  have h5 := hlo n.n5; have h5' := hhi n.n5
  have h7 := hlo n.n7; have h7' := hhi n.n7
  unfold gradX
  omega

/-- R134's gradient is R133's of the transposed window. -/
theorem gradY_eq_gradX (n : Window) : gradY n = gradX ⟨n.n0, n.n3, n.n5, n.n1, n.n6, n.n2, n.n4, n.n7⟩ := rfl

theorem gradY_bounds (n : Window) : -1020 ≤ gradY n ∧ gradY n ≤ 1020 :=
  gradY_eq_gradX n ▸ gradX_bounds _

theorem toInt_ofInt_gradient {g : Int} (h : -1020 ≤ g ∧ g ≤ 1020) : (BitVec.ofInt 11 g).toInt = g :=
  BitVec.toInt_ofInt_eq_self (by decide) (by norm_num; omega) (by norm_num; omega)

/-- R133: the register holds the exact gradient. -/
theorem State.computeGx_toInt (s : State) : s.computeGx.gx.toInt = gradX s.n :=
  toInt_ofInt_gradient (gradX_bounds s.n)

/-- R134: the register holds the exact gradient. -/
theorem State.computeGy_toInt (s : State) : s.computeGy.gy.toInt = gradY s.n :=
  toInt_ofInt_gradient (gradY_bounds s.n)

theorem mul_self_le_of_gradient {g : Int} (h : -1020 ≤ g ∧ g ≤ 1020) : g * g ≤ 1040400 := by
  nlinarith [h.1, h.2]

/-- R150: the sum of the squares of two gradients fits the 21 bits of SS. -/
theorem State.computeSs_toNat {s : State} (hx : -1020 ≤ s.gx.toInt ∧ s.gx.toInt ≤ 1020)
    (hy : -1020 ≤ s.gy.toInt ∧ s.gy.toInt ≤ 1020) :
    (s.computeSs.ss.toNat : Int) = s.gx.toInt * s.gx.toInt + s.gy.toInt * s.gy.toInt := by
  have hxx := mul_self_le_of_gradient hx
  have hyy := mul_self_le_of_gradient hy
  have hsum : 0 ≤ s.gx.toInt * s.gx.toInt + s.gy.toInt * s.gy.toInt :=
    add_nonneg (mul_self_nonneg _) (mul_self_nonneg _)
  rw [State.computeSs_ss, BitVec.toNat_ofInt, Int.emod_eq_of_lt hsum (by norm_num; omega), Int.toNat_of_nonneg hsum]

theorem isqrtDigits_mul_self_le (fuel n : Nat) : isqrtDigits fuel n * isqrtDigits fuel n ≤ n := by
  induction fuel generalizing n with
  | zero => exact Nat.zero_le n
  | succ fuel ih =>
    rw [isqrtDigits]
    dsimp only
    split
    · exact Nat.zero_le n
    split
    · assumption
    · calc 2 * isqrtDigits fuel (n / 4) * (2 * isqrtDigits fuel (n / 4))
        _ = 4 * (isqrtDigits fuel (n / 4) * isqrtDigits fuel (n / 4)) := by ring
        _ ≤ 4 * (n / 4) := Nat.mul_le_mul_left 4 (ih (n / 4))
        _ ≤ n := Nat.mul_div_le n 4

/-- The lower half of R153. -/
theorem isqrt_mul_self_le (n : Nat) : isqrt n * isqrt n ≤ n :=
  isqrtDigits_mul_self_le n n

/-- R153: the root of a 21-bit number fits the 11 bits of ROOT. -/
theorem State.computeRoot_toNat (s : State) : s.computeRoot.root.toNat = isqrt s.ss.toNat := by
  have hroot := isqrt_mul_self_le s.ss.toNat
  have hss : s.ss.toNat < 2048 * 2048 := s.ss.isLt.trans (by norm_num)
  have hlt : isqrt s.ss.toNat < 2048 := by
    by_contra hge
    have hsq := Nat.mul_self_le_mul_self (Nat.not_lt.mp hge)
    omega
  rw [State.computeRoot_root, BitVec.toNat_ofNat, Nat.mod_eq_of_lt hlt]

/-- R157: NARROW_MODE is WRAP. -/
theorem State.computeMag_toNat (s : State) : s.computeMag.mag.toNat = s.root.toNat % 256 :=
  BitVec.toNat_ofNat s.root.toNat 8

end Sys2Proof.Machine
end

section
/-! PROOF. What every step keeps, what a run writes and when the result flags change (spec/10_state.md). -/

namespace Sys2Proof.Machine

/-! ## START and RESET, field by field -/

section
variable {s t : State}

/-- R174, R191: an image that does not fit is the range error. -/
theorem State.start_of_range (h : s.memBytes < s.imageBytes) : s.start = s.clearResult.raiseRange :=
  if_pos h

/-- R174: an image that fits is a run. -/
theorem State.start_of_fits (h : s.imageBytes ≤ s.memBytes) : s.start = s.clearResult.beginRun :=
  if_neg (Nat.not_lt.mpr h)

/-- R210, R211: after RESET the engine is idle, at the beginning of its order, and no flag is set. -/
theorem execReset_idle (h : execReset s = .next t) :
    t.busy = false ∧ t.phase = .zfill ∧ t.done = false ∧ t.err = false := by
  cases h
  exact ⟨rfl, rfl, rfl, rfl⟩

theorem execReset_src (h : execReset s = .next t) : t.src = s.src := by
  cases h
  show (if s.busy then s.abandonImage else s).src = s.src
  split <;> rfl

/-- R210, R211: RESET writes DST in the image area of an abandoned run only. -/
theorem execReset_writes (h : execReset s = .next t) :
    s.dst.WrittenBelow (min s.imageBytes s.memBytes) t.dst := by
  cases h
  show s.dst.WrittenBelow _ (if s.busy then s.abandonImage else s).dst
  split
  · exact .setPrefix _
  · exact .refl

/-! ## What a run writes -/

/-- While BUSY = 1 the host reaches DST by a reset only (R62). -/
theorem HostEffect.writes_image_of_busy {h : HostInput} (he : HostEffect h s t) (hb : s.busy = true) :
    s.dst.WrittenBelow s.imageBytes t.dst := by
  cases he with
  | answered | ignored => exact .refl
  | started hd hv hidle | resized hidle w w' | stored hidle hc => simp [hb] at hidle
  | reset hr ht => exact (execReset_writes ht).mono (min_le_left _ _)

theorem EngineEffect.writes_image (he : EngineEffect s t) : s.dst.WrittenBelow s.imageBytes t.dst := by
  cases he with
  | zfill hp hu =>
    rw [State.scanTo_dst]
    exact State.zeroImage_writes_image hu
  | pack hp hu =>
    rw [State.scanTo_dst]
    exact State.packPixel_writes_image hu
  | window | gx | gy | sqsum | root | narrow | complete => exact .refl

theorem StepEffect.writes_image_of_busy (he : StepEffect s t) (hb : s.busy = true) :
    s.dst.WrittenBelow s.imageBytes t.dst := by
  cases he with
  | host h rest hs he => exact he.writes_image_of_busy hb
  | wait v l ht | idle rest hidle ht =>
    rw [ht]
    exact .refl
  | engine rest hb he => exact he.writes_image
  | apply rest hb ht =>
    have hwrites := execApply_writes_image ht
    exact hwrites

/-! ## The invariant while the engine is idle -/

theorem State.MemoriesLegal.of_writes (hs : s.MemoriesLegal) (hcap : t.memPixels = s.memPixels)
    (hsrc : s.src.WrittenBelow s.memBytes t.src) (hdst : s.dst.WrittenBelow s.memBytes t.dst) : t.MemoriesLegal := by
  obtain ⟨hsrcWf, hdstWf, hsrcLt, hdstLt⟩ := hs
  have hbytes : t.memBytes = s.memBytes := by rw [State.memBytes, hcap, State.memBytes]
  rw [State.MemoriesLegal, hbytes]
  exact ⟨hsrc.wf hsrcWf, hdst.wf hdstWf, hsrc.addresses_lt le_rfl hsrcLt, hdst.addresses_lt le_rfl hdstLt⟩

theorem State.MemoriesLegal.setMem {m : PixelMem} {c : Memory} (hs : s.MemoriesLegal)
    (hc : (s.mem m).WrittenBelow s.memBytes c) : (s.setMem m c).MemoriesLegal := by
  cases m with
  | src => exact hs.of_writes rfl hc .refl
  | dst => exact hs.of_writes rfl .refl hc

/-- With no run going on, the invariant speaks of the flags, the sequencer's place and the memories only. -/
theorem State.Inv.of_idle (hb : s.busy = false) (hp : s.phase = .zfill) (hflags : s.err = true → s.done = true)
    (hmem : s.MemoriesLegal) : s.Inv := by
  have hrun : s.busy ≠ true := by simp [hb]
  exact {
    status := ⟨fun h => absurd h hrun, hflags⟩
    memories := hmem
    fits := fun h => absurd h hrun
    idlePhase := fun _ => hp
    scan := fun h => absurd h hrun
    stages := fun h => absurd h hrun }

/-- The invariant does not speak of the script and of the value last read. -/
theorem State.Inv.with_host_fields (hi : s.Inv) (v : Word) (l : List Move) :
    ({ s with readData := v, script := l } : State).Inv where
  status := hi.status
  memories := hi.memories
  fits := hi.fits
  idlePhase := hi.idlePhase
  scan := hi.scan
  stages := hi.stages

/-! ## The invariant during a run -/

/-- Before WINDOW and after the last pixel no stage value is claimed. -/
theorem State.stagesHeld_of_no_stage (h : s.phase = .zfill ∨ s.phase = .window ∨ s.phase = .complete) :
    s.StagesHeld := by
  intro _
  obtain hp | hp | hp := h <;> simp [hp, Phase.after, Phase.order]

/-- What a move within a run owes the invariant: the host's side and SRC are left alone, DST is written in the image
area only, and the scan position and the stages are right for the new phase. -/
theorem State.Inv.of_run_move (hi : s.Inv) (hb : s.busy = true) (hside : t.hostSide = s.hostSide)
    (hdst : s.dst.WrittenBelow s.imageBytes t.dst)
    (hscan : t.phase.perPixel → Interior t.width.toNat t.height.toNat t.x.toNat t.y.toNat)
    (hstages : t.StagesHeld) : t.Inv where
  status := by
    rw [State.StatusLegal, State.busy_eq_of_hostSide hside, State.done_eq_of_hostSide hside,
      State.err_eq_of_hostSide hside]
    exact hi.status
  memories :=
    hi.memories.of_writes (State.memPixels_eq_of_hostSide hside) (State.src_eq_of_hostSide hside ▸ .refl)
      (hdst.mono (hi.fits hb))
  fits _ := by
    rw [State.imageBytes_eq_of_hostSide hside, State.memBytes_eq_of_hostSide hside]
    exact hi.fits hb
  idlePhase h := by
    rw [State.busy_eq_of_hostSide hside, hb] at h
    cases h
  scan _ := hscan
  stages := hstages

/-- R105: the first scan position is interior. -/
theorem State.interior_of_firstPixel {p : Word × Word} (h : s.firstPixel = some p) :
    Interior s.width.toNat s.height.toNat p.1.toNat p.2.toNat := by
  unfold State.firstPixel at h
  split at h
  · rename_i hsize
    cases h
    exact ⟨le_rfl, hsize.1, le_rfl, hsize.2⟩
  · cases h

/-- R105: the scan position after an interior one is interior. -/
theorem State.interior_of_nextPixel {p : Word × Word}
    (hi : Interior s.width.toNat s.height.toNat s.x.toNat s.y.toNat) (h : s.nextPixel = some p) :
    Interior s.width.toNat s.height.toNat p.1.toNat p.2.toNat := by
  obtain ⟨hx, hxw, hy, hyh⟩ := hi
  have hw := s.width.isLt
  have hh := s.height.isLt
  unfold State.nextPixel at h
  split at h
  · rename_i hcol
    cases h
    have hstep : (s.x + 1).toNat = s.x.toNat + 1 := BitVec.toNat_add_of_lt (by simp; omega)
    show Interior _ _ (s.x + 1).toNat s.y.toNat
    rw [hstep]
    exact ⟨by omega, hcol, hy, hyh⟩
  split at h
  · rename_i hrow
    cases h
    have hstep : (s.y + 1).toNat = s.y.toNat + 1 := BitVec.toNat_add_of_lt (by simp; omega)
    show Interior _ _ 1 (s.y + 1).toNat
    rw [hstep]
    exact ⟨le_rfl, by omega, by omega, hrow⟩
  · cases h

/-- A move after which the sequencer goes to a scan position, or to completion where none is left. -/
theorem State.Inv.of_scan_move {p : Option (Word × Word)} (hi : s.Inv) (hb : s.busy = true)
    (hside : t.hostSide = s.hostSide) (hdst : s.dst.WrittenBelow s.imageBytes t.dst)
    (hp : ∀ q, p = some q → Interior t.width.toNat t.height.toNat q.1.toNat q.2.toNat) : (t.scanTo p).Inv := by
  have hside' : (t.scanTo p).hostSide = s.hostSide := (t.scanTo_hostSide p).trans hside
  cases p with
  | none =>
    exact hi.of_run_move hb hside' hdst (fun h => absurd rfl h.2) (stagesHeld_of_no_stage (.inr (.inr rfl)))
  | some q => exact hi.of_run_move hb hside' hdst (fun _ => hp q rfl) (stagesHeld_of_no_stage (.inr (.inl rfl)))

/-- A move from one stage of a pixel to the next changes stage values only. -/
theorem State.Inv.of_stage_move {p : Phase} (hi : s.Inv) (hb : s.busy = true) (hp : s.phase = p)
    (hside : t.hostSide = s.hostSide) (hdst : t.dst = s.dst) (hx : t.x = s.x) (hy : t.y = s.y)
    (hstages : t.StagesHeld) (hpixel : p.perPixel := by decide) : t.Inv := by
  refine hi.of_run_move hb hside (hdst ▸ .refl) (fun _ => ?_) hstages
  rw [State.width_eq_of_hostSide hside, State.height_eq_of_hostSide hside, hx, hy]
  exact hi.scan hb (hp ▸ hpixel)

/-! ## The stages of a pixel, one after another (R104) -/

/-- R131. -/
theorem State.stagesHeld_after_window {n : Window} {a : Byte} (hn : ∀ i, s.neighbourLuma i = .ok (n.get i))
    (ha : s.channel s.x.toNat s.y.toNat 3 = .ok a) :
    ({ s with n := n, alpha := a, phase := .gx } : State).StagesHeld := by
  intro _
  refine ⟨fun _ => ⟨fun i => ?_, ?_⟩, nofun, nofun, nofun, nofun, nofun⟩
  · exact congrArg Except.toOption (hn i)
  · exact congrArg Except.toOption ha

variable (hst : s.StagesHeld) (hb : s.busy = true)
include hst hb

/-- R133. -/
theorem State.stagesHeld_after_gx (hp : s.phase = .gx) : ({ s.computeGx with phase := .gy } : State).StagesHeld := by
  obtain ⟨hwindow, -⟩ := hp ▸ hst hb
  exact fun _ => ⟨fun _ => hwindow rfl, fun _ => s.computeGx_toInt, nofun, nofun, nofun, nofun⟩

/-- R134. -/
theorem State.stagesHeld_after_gy (hp : s.phase = .gy) :
    ({ s.computeGy with phase := .sqsum } : State).StagesHeld := by
  obtain ⟨hwindow, hgx, -⟩ := hp ▸ hst hb
  exact fun _ => ⟨fun _ => hwindow rfl, fun _ => hgx rfl, fun _ => s.computeGy_toInt, nofun, nofun, nofun⟩

/-- R150: the stages before have put both gradients in the range of R136. -/
theorem State.stagesHeld_after_sqsum (hp : s.phase = .sqsum) :
    ({ s.computeSs with phase := .root } : State).StagesHeld := by
  obtain ⟨hwindow, hgx, hgy, -⟩ := hp ▸ hst hb
  have hss := State.computeSs_toNat (hgx rfl ▸ gradX_bounds s.n) (hgy rfl ▸ gradY_bounds s.n)
  exact fun _ => ⟨fun _ => hwindow rfl, fun _ => hgx rfl, fun _ => hgy rfl, fun _ => hss, nofun, nofun⟩

/-- R153. -/
theorem State.stagesHeld_after_root (hp : s.phase = .root) :
    ({ s.computeRoot with phase := .narrow } : State).StagesHeld := by
  obtain ⟨hwindow, hgx, hgy, hss, -⟩ := hp ▸ hst hb
  exact fun _ => ⟨fun _ => hwindow rfl, fun _ => hgx rfl, fun _ => hgy rfl, fun _ => hss rfl,
    fun _ => s.computeRoot_toNat, nofun⟩

/-- R157. -/
theorem State.stagesHeld_after_narrow (hp : s.phase = .narrow) :
    ({ s.computeMag with phase := .pack } : State).StagesHeld := by
  obtain ⟨hwindow, hgx, hgy, hss, hroot, -⟩ := hp ▸ hst hb
  exact fun _ => ⟨fun _ => hwindow rfl, fun _ => hgx rfl, fun _ => hgy rfl, fun _ => hss rfl, fun _ => hroot rfl,
    fun _ => s.computeMag_toNat⟩

end

/-! ## Every move keeps the invariant -/

section
variable {s t : State}

theorem State.Inv.start (hi : s.Inv) (hb : s.busy = false) : s.start.Inv := by
  obtain hrange | hfits := Nat.lt_or_ge s.memBytes s.imageBytes
  · rw [State.start_of_range hrange]
    exact .of_idle hb (hi.idlePhase hb) (fun _ => rfl) hi.memories
  · rw [State.start_of_fits hfits]
    exact {
      status := ⟨fun _ => rfl, nofun⟩
      memories := hi.memories
      fits := fun _ => hfits
      idlePhase := nofun
      scan := fun _ h => absurd rfl h.1
      stages := State.stagesHeld_of_no_stage (.inl rfl) }

theorem execReset_inv (hi : s.Inv) (ht : execReset s = .next t) : t.Inv := by
  obtain ⟨hb, hp, -, herr⟩ := execReset_idle ht
  refine .of_idle hb hp (fun h => ?_) (hi.memories.of_writes (execReset_keeps_memPixels s t ht) ?_ ?_)
  · rw [herr] at h
    cases h
  · rw [execReset_src ht]
    exact .refl
  · exact (execReset_writes ht).mono (min_le_right _ _)

theorem HostEffect.inv {h : HostInput} (he : HostEffect h s t) (hi : s.Inv) : t.Inv := by
  cases he with
  | answered v => exact hi.with_host_fields v s.script
  | ignored => exact hi
  | started hd hv hb => exact hi.start hb
  | resized hb w w' => exact .of_idle hb (hi.idlePhase hb) hi.status.2 hi.memories
  | @stored m c hb hc =>
    refine .of_idle ?_ ?_ ?_ (hi.memories.setMem hc)
    · rw [State.setMem_busy, hb]
    · rw [State.setMem_phase, hi.idlePhase hb]
    · rw [State.setMem_err, State.setMem_done]
      exact hi.status.2
  | reset hr ht => exact execReset_inv hi ht

/-- R180: the end of a run keeps the memories, and DONE is set whatever ERR is. -/
theorem State.Inv.completeRun (hi : s.Inv) : s.completeRun.Inv :=
  .of_idle rfl rfl (fun _ => rfl) hi.memories

theorem EngineEffect.inv (he : EngineEffect s t) (hi : s.Inv) (hb : s.busy = true) : t.Inv := by
  cases he with
  | @zfill u hp hu =>
    exact hi.of_scan_move hb (s.zeroImage_keeps_hostSide u hu) (State.zeroImage_writes_image hu)
      fun q hq => State.interior_of_firstPixel hq
  | window hp hn ha =>
    exact hi.of_stage_move hb hp rfl rfl rfl rfl (State.stagesHeld_after_window hn ha)
  | gx hp => exact hi.of_stage_move hb hp rfl rfl rfl rfl (State.stagesHeld_after_gx hi.stages hb hp)
  | gy hp => exact hi.of_stage_move hb hp rfl rfl rfl rfl (State.stagesHeld_after_gy hi.stages hb hp)
  | sqsum hp => exact hi.of_stage_move hb hp rfl rfl rfl rfl (State.stagesHeld_after_sqsum hi.stages hb hp)
  | root hp => exact hi.of_stage_move hb hp rfl rfl rfl rfl (State.stagesHeld_after_root hi.stages hb hp)
  | narrow hp => exact hi.of_stage_move hb hp rfl rfl rfl rfl (State.stagesHeld_after_narrow hi.stages hb hp)
  | @pack u hp hu =>
    have hinside : Interior u.width.toNat u.height.toNat u.x.toNat u.y.toNat := by
      obtain ⟨-, -, -, rfl⟩ := State.storePixel_eq_next.mp hu
      exact hi.scan hb (by rw [hp]; decide)
    exact hi.of_scan_move hb (s.packPixel_keeps_hostSide u hu) (State.packPixel_writes_image hu)
      fun q hq => State.interior_of_nextPixel hinside hq
  | complete hp => exact hi.completeRun

/-- APPLY taken as one step leaves the engine before completion, where no position and no stage is claimed (D24). -/
theorem execApply_inv (hi : s.Inv) (hb : s.busy = true) (ht : execApply s = .next t) : t.Inv := by
  have hp := execApply_phase ht
  exact hi.of_run_move hb (execApply_keeps_hostSide s t ht) (execApply_writes_image ht) (fun h => absurd hp h.2)
    (State.stagesHeld_of_no_stage (.inr (.inr hp)))

theorem StepEffect.inv (he : StepEffect s t) (hi : s.Inv) : t.Inv := by
  have hpopped (rest : List Move) : ({ s with script := rest } : State).Inv := hi.with_host_fields s.readData rest
  cases he with
  | host h rest hs he => exact he.inv (hpopped rest)
  | wait v l ht =>
    rw [ht]
    exact hi.with_host_fields v l
  | idle rest hb ht =>
    rw [ht]
    exact hpopped rest
  | engine rest hb he => exact he.inv (hpopped rest) hb
  | apply rest hb ht => exact execApply_inv (hpopped rest) hb ht

end

theorem State.powerUp_inv (n : Nat) : (State.powerUp n).Inv :=
  .of_idle rfl rfl nofun ⟨(State.powerUp_wf n).1, (State.powerUp_wf n).2, nofun, nofun⟩

/-! ## The obligations of spec/10_state.md -/

/-- Settles O49: each effect a step can have keeps the invariant. -/
theorem everyStepKeepsTheInvariant : Obligations.EveryStepKeepsTheInvariant :=
  fun _ _ hi ht => (StepEffect.of_step ht).inv hi

/-- Settles O53: the engine writes pixels of the image only, and the host is kept from DST but for a reset. -/
theorem runWritesOnlyTheImageArea : Obligations.RunWritesOnlyTheImageArea :=
  fun _ _ hb ht => ((StepEffect.of_step ht).writes_image_of_busy hb).read

/-- Settles O55: of the effects that an idle block's step can have, START's and RESET's alone touch DONE and ERR. -/
theorem resultFlagsStayUntilStartOrReset : Obligations.ResultFlagsStayUntilStartOrReset := by
  intro s t hidle ht hchange
  cases StepEffect.of_step ht with
  | host h rest hs he =>
    refine ⟨h, rest, hs, ?_⟩
    cases he with
    | started hd hv hb => exact .inr ⟨_, hd, hv⟩
    | reset hr ht => exact .inl hr
    | answered | ignored | resized | stored => simp at hchange
  | wait v l ht | idle rest hb ht => simp [ht] at hchange
  | engine rest hb he | apply rest hb ht => simp [hidle] at hb

/-- Settles O11: an image of size 0 fits every capacity, so a START begins a run. -/
theorem powerUpState : Obligations.PowerUpState := by
  intro n
  have hread (m : PixelMem) (a : Nat) : ((State.powerUp n).mem m).read a = none := by cases m <;> rfl
  have hfits : (State.powerUp n).imageBytes ≤ (State.powerUp n).memBytes := Nat.zero_le _
  have hstart : exec (.wrCtrl 1) (State.powerUp n) = .next (State.powerUp n).clearResult.beginRun := by
    rw [← State.start_of_fits hfits]
    rfl
  exact ⟨rfl, rfl, State.statusWord_eq _, hread, _, hstart, State.statusWord_eq _, rfl, rfl⟩

/-- Settles O50: after power-up the block is idle, no flag is set and neither memory lists an address. -/
theorem resetMeetsTheInvariant : Obligations.ResetMeetsTheInvariant :=
  ⟨State.powerUp_inv, State.powerUp_inv Config.resetPixels⟩

end Sys2Proof.Machine
end

section
/-! PROOF. The host's port to the pixel memories: what R54 and R62 let through, and what a read then returns
(spec/20_memory.md R52 to R62, spec/44_host_commands.md R178, R179). -/

namespace Sys2Proof.Machine

/-! ## The guards of a host access -/

section
variable {s : State} {m : PixelMem} {a k : Nat} {r : Result}

/-- R62. -/
theorem State.hostAccess_of_busy (hb : s.busy = true) : s.hostAccess m a k r = .refused .memoryAccessDuringRun :=
  if_pos hb

/-- R178, R179 (log 29). -/
theorem State.hostAccess_of_idle (hb : s.busy = false) (ha : a + k ≤ s.memBytes) : s.hostAccess m a k r = r := by
  simp [State.hostAccess, hb, ha]

/-- R54. -/
theorem State.hostAccess_of_outside (hb : s.busy = false) (ha : s.memBytes < a + k) :
    s.hostAccess m a k r = .refused (.addressOutOfRange m a) := by
  simp [State.hostAccess, hb, Nat.not_le.mpr ha]

theorem aligned_of_multiple (ha : a % 4 = 0) : aligned a r = r :=
  if_pos ha

end

/-! ## Reads of written and of unwritten bytes -/

section
variable {s : State} {m : PixelMem} {a : Nat}

theorem State.readByte_of_written (ha : a < s.memBytes) (hw : ((s.mem m).read a).isSome = true) :
    ∃ v, s.readByte m a = .ok v := by
  obtain ⟨v, hv⟩ := Option.isSome_iff_exists.mp hw
  exact ⟨v, State.readByte_eq_ok.mpr ⟨ha, hv⟩⟩

/-- R179 (log 5). -/
theorem State.readByte_of_unwritten (ha : a < s.memBytes) (hu : (s.mem m).read a = none) :
    s.readByte m a = .error (.unwrittenByte m a) := by
  rw [State.readByte, if_pos ha, hu]

theorem State.readWord_of_written (ha : a + 4 ≤ s.memBytes)
    (hw : ∀ k < 4, ((s.mem m).read (a + k)).isSome = true) : ∃ v, s.readWord m a = .ok v := by
  have hbyte (k : Nat) (hk : k < 4) : ∃ v, s.readByte m (a + k) = .ok v :=
    State.readByte_of_written (by omega) (hw k hk)
  obtain ⟨b0, h0⟩ := hbyte 0 (by decide)
  obtain ⟨b1, h1⟩ := hbyte 1 (by decide)
  obtain ⟨b2, h2⟩ := hbyte 2 (by decide)
  obtain ⟨b3, h3⟩ := hbyte 3 (by decide)
  exact ⟨_, State.readWord_eq_ok.mpr ⟨b0, b1, b2, b3, h0, h1, h2, h3, rfl⟩⟩

/-- A 32-bit read stops with the fault of one of its bytes, or answers. -/
theorem State.readWord_ok_or_error (s : State) (m : PixelMem) (a : Nat) :
    (∃ v, s.readWord m a = .ok v) ∨
      ∃ j < 4, ∃ e, s.readByte m (a + j) = .error e ∧ s.readWord m a = .error e := by
  unfold State.readWord
  cases h0 : s.readByte m a with
  | error e => exact .inr ⟨0, by decide, e, h0, rfl⟩
  | ok b0 =>
  cases h1 : s.readByte m (a + 1) with
  | error e => exact .inr ⟨1, by decide, e, h1, rfl⟩
  | ok b1 =>
  cases h2 : s.readByte m (a + 2) with
  | error e => exact .inr ⟨2, by decide, e, h2, rfl⟩
  | ok b2 =>
  cases h3 : s.readByte m (a + 3) with
  | error e => exact .inr ⟨3, by decide, e, h3, rfl⟩
  | ok b3 => exact .inl ⟨_, rfl⟩

/-- R179 (log 5): a 32-bit read one of whose bytes has not been written stops at such a byte. -/
theorem State.readWord_of_unwritten {k : Nat} (ha : a + 4 ≤ s.memBytes) (hk : k < 4)
    (hu : (s.mem m).read (a + k) = none) :
    ∃ j < 4, s.readWord m a = .error (.unwrittenByte m (a + j)) := by
  obtain ⟨v, hv⟩ | ⟨j, hj, e, hbyte, hword⟩ := s.readWord_ok_or_error m a
  · obtain ⟨b0, b1, b2, b3, h0, h1, h2, h3, -⟩ := State.readWord_eq_ok.mp hv
    have hfault := State.readByte_of_unwritten (show a + k < s.memBytes by omega) hu
    interval_cases k
    · cases h0.symm.trans hfault
    · cases h1.symm.trans hfault
    · cases h2.symm.trans hfault
    · cases h3.symm.trans hfault
  · refine ⟨j, hj, ?_⟩
    cases hr : (s.mem m).read (a + j) with
    | none =>
      cases hbyte.symm.trans (State.readByte_of_unwritten (by omega) hr)
      exact hword
    | some v => cases hbyte.symm.trans (State.readByte_eq_ok.mpr ⟨by omega, hr⟩)

end

/-! ## A step whose move is a transaction of a pixel memory -/

/-- The two shapes that R54 allows: one byte, or 32 bits at a multiple of 4. -/
abbrev MemShape (t : Txn) : Prop := t.width = 1 ∨ (t.width = 4 ∧ t.addr % 4 = 0)

/-- What a read of a pixel memory would return: the byte, zeros above it, or the 32-bit value (R179; log 14). -/
def State.load (s : State) (m : PixelMem) (t : Txn) : Except Fault Word :=
  if t.width = 1 then (s.readByte m t.addr).map (BitVec.setWidth 32) else s.readWord m t.addr

/-- What a write makes of a pixel memory: its low byte stored, or its four (R178). -/
def Memory.store (c : Memory) (t : Txn) : Memory :=
  if t.width = 1 then c.write t.addr (t.data.setWidth 8) else c.writeWord t.addr t.data

/-- The effect of a transaction of a pixel memory behind the guards of `State.hostAccess`. -/
def memEffect (m : PixelMem) (t : Txn) (s : State) : Result :=
  match t.dir with
  | .read => ofExcept ((s.load m t).map s.answer)
  | .write => .next (s.setMem m ((s.mem m).store t))

section
variable {s : State} {t : Txn} {m : PixelMem}

theorem decodeMem_read_word {sp : Space} {a : Nat} {d : Word} (ha : a % 4 = 0) :
    decodeMem m ⟨sp, .read, 4, a, d⟩ = .instr (.rdp m a) := by
  simp [decodeMem, ha]

theorem decodeMem_write_word {sp : Space} {a : Nat} {d : Word} (ha : a % 4 = 0) :
    decodeMem m ⟨sp, .write, 4, a, d⟩ = .instr (.wrp m a d) := by
  simp [decodeMem, ha]

/-- A transaction of an allowed shape is an access of its own width, behind the guards of R54 and R62. -/
theorem perform_of_memShape (hshape : MemShape t) :
    perform (decodeMem m t) s = s.hostAccess m t.addr t.width (memEffect m t s) := by
  obtain ⟨space, dir, width, addr, data⟩ := t
  obtain rfl | ⟨rfl, ha⟩ := hshape
  · cases dir with
    | read =>
      refine congrArg (s.hostAccess m addr 1) ?_
      show ofExcept ((s.readByte m addr).map _) = ofExcept (((s.readByte m addr).map _).map _)
      cases s.readByte m addr <;> rfl
    | write => rfl
  · cases dir with
    | read =>
      rw [perform_of_instr (decodeMem_read_word ha)]
      exact aligned_of_multiple ha
    | write =>
      rw [perform_of_instr (decodeMem_write_word ha)]
      exact aligned_of_multiple ha

/-- R54. -/
theorem perform_of_not_memShape (hshape : ¬ MemShape t) : ∃ r, perform (decodeMem m t) s = .refused r := by
  obtain ⟨hbyte, hword⟩ := not_or.mp hshape
  by_cases hw : t.width = 4
  · have ha : ¬ t.addr % 4 = 0 := fun ha => hword ⟨hw, ha⟩
    have hdecode : decodeMem m t = .rejected .memAlign := by simp [decodeMem, hw, ha]
    exact ⟨_, by rw [hdecode, perform]⟩
  · have hdecode : decodeMem m t = .rejected .memWidth := by simp [decodeMem, hw, hbyte]
    exact ⟨_, by rw [hdecode, perform]⟩

/-- R170. -/
theorem step_of_memory_transaction {rest : List Move} (hs : s.script = .host (.bus t) :: rest)
    (hm : t.space = .pixels m) : step s = perform (decodeMem m t) { s with script := rest } := by
  rw [step_of_script_cons hs, makeMove, decode, hm]

/-- R178. -/
theorem memEffect_of_write (hd : t.dir = .write) : memEffect m t s = .next (s.setMem m ((s.mem m).store t)) := by
  rw [memEffect, hd]

theorem memEffect_of_read (hd : t.dir = .read) : memEffect m t s = ofExcept ((s.load m t).map s.answer) := by
  rw [memEffect, hd]

section
variable (hshape : MemShape t) (ha : t.addr + t.width ≤ s.memBytes)
include hshape ha

theorem State.load_of_written (hw : ∀ k < t.width, ((s.mem m).read (t.addr + k)).isSome = true) :
    ∃ v, s.load m t = .ok v := by
  unfold State.load
  obtain h1 | ⟨h4, -⟩ := hshape
  · rw [h1] at ha hw
    obtain ⟨v, hv⟩ := State.readByte_of_written ha (hw 0 (by decide))
    exact ⟨v.setWidth 32, by rw [if_pos h1, hv, Except.map]⟩
  · rw [h4] at ha hw
    rw [if_neg (by omega)]
    exact State.readWord_of_written ha hw

/-- R179 (log 5). -/
theorem State.load_of_unwritten {k : Nat} (hk : k < t.width) (hu : (s.mem m).read (t.addr + k) = none) :
    ∃ j < t.width, s.load m t = .error (.unwrittenByte m (t.addr + j)) := by
  unfold State.load
  obtain h1 | ⟨h4, -⟩ := hshape
  · rw [h1] at ha hk
    obtain rfl : k = 0 := by omega
    exact ⟨0, by omega, by rw [if_pos h1, State.readByte_of_unwritten ha hu, Except.map]; rfl⟩
  · rw [h4] at ha hk ⊢
    rw [if_neg (by decide)]
    exact State.readWord_of_unwritten ha hk hu

end

end

/-! ## A read changes nothing but the value returned (R57) -/

/-- An operation that keeps everything but `readData` answers the old state with a new `readData`. -/
theorem Keeps.eq_with_readData {s t : State} {r : Result} (h : Keeps (fun u => u.answer 0) s r) (ht : r = .next t) :
    t = { s with readData := t.readData } :=
  calc t
    _ = (t.answer 0).answer t.readData := rfl
    _ = (s.answer 0).answer t.readData := congrArg (State.answer · t.readData) (h t ht)
    _ = { s with readData := t.readData } := rfl

/-! ## A byte of a 32-bit value (R52) -/

theorem toNat_byteOfWord (v : Word) (k : Nat) : (byteOfWord v k).toNat = v.toNat / 256 ^ k % 256 := by
  rw [byteOfWord, BitVec.extractLsb'_toNat, Nat.shiftRight_eq_div_pow, Nat.pow_mul]

/-! ## The obligations of spec/20_memory.md about host accesses -/

/-- Settles O22: `hostAccess` lets an access of an allowed shape through to its bytes, and refuses it outside the
memory. -/
theorem pixelMemoryAccessShapes : Obligations.PixelMemoryAccessShapes := by
  intro s t rest m hs hm hb
  rw [step_of_memory_transaction hs hm]
  have hthrough (hshape : MemShape t) (ha : t.addr + t.width ≤ s.memBytes) :
      perform (decodeMem m t) { s with script := rest } = memEffect m t { s with script := rest } :=
    (perform_of_memShape hshape).trans (State.hostAccess_of_idle hb ha)
  refine ⟨fun hshape ha hw => ?_, fun hshape ha hd k hk hu => ?_, fun hout => ?_⟩
  · rw [hthrough hshape ha]
    cases hd : t.dir with
    | read =>
      obtain ⟨v, hv⟩ := State.load_of_written (s := { s with script := rest }) hshape ha (hw hd)
      exact ⟨_, by rw [memEffect_of_read hd, hv]; rfl⟩
    | write => exact ⟨_, memEffect_of_write hd⟩
  · obtain ⟨j, hj, hfault⟩ := State.load_of_unwritten (s := { s with script := rest }) hshape ha hk hu
    exact ⟨j, hj, by rw [hthrough hshape ha, memEffect_of_read hd, hfault]; rfl⟩
  · by_cases hshape : MemShape t
    · have ha : s.memBytes < t.addr + t.width := hout.resolve_left (not_not_intro hshape)
      exact ⟨_, (perform_of_memShape hshape).trans (State.hostAccess_of_outside hb ha)⟩
    · exact perform_of_not_memShape hshape

/-- Settles O25: the decoder or, for an allowed shape, BUSY refuses the access. -/
theorem memoryAccessDuringRunRefused : Obligations.MemoryAccessDuringRunRefused := by
  intro s t rest m hb hm hs
  rw [step_of_memory_transaction hs hm]
  by_cases hshape : MemShape t
  · exact ⟨_, (perform_of_memShape hshape).trans (State.hostAccess_of_busy hb)⟩
  · exact perform_of_not_memShape hshape

/-- Settles O26: byte `k` of the value written is what `read_writeWord` finds at `a + k`. -/
theorem byteReadAfterPixelWrite : Obligations.ByteReadAfterPixelWrite := by
  intro s m a k v hb ha hfit hk
  have hwrite : exec (.wrp m a v) s = .next (s.setMem m ((s.mem m).writeWord a v)) :=
    (aligned_of_multiple ha).trans (State.hostAccess_of_idle hb hfit)
  generalize hu : s.setMem m ((s.mem m).writeWord a v) = u at hwrite
  have hbusy : u.busy = false := by rw [← hu, State.setMem_busy, hb]
  have hbytes : u.memBytes = s.memBytes := by rw [← hu, State.setMem_memBytes]
  have hbyte : u.readByte m (a + k) = .ok (byteOfWord v k) := by
    refine State.readByte_eq_ok.mpr ⟨by omega, ?_⟩
    rw [← hu, State.setMem_mem, Memory.read_writeWord, if_pos (by omega), Nat.add_sub_cancel_left]
  have hread : exec (.rdb m (a + k)) u = .next (u.answer ((byteOfWord v k).setWidth 32)) := by
    show u.hostAccess m (a + k) 1 (ofExcept ((u.readByte m (a + k)).map _)) = _
    rw [State.hostAccess_of_idle hbusy (by omega), hbyte]
    rfl
  refine ⟨_, by rw [hwrite, andThen_of_next, hread], ?_⟩
  rw [State.answer_readData, BitVec.toNat_setWidth_of_le (by decide), toNat_byteOfWord]

/-- Settles O27: each of the six reads ends in `State.answer`. -/
theorem readsHaveNoSideEffect : Obligations.ReadsHaveNoSideEffect := by
  intro s t i hi ht
  have hanswer (v : Word) : (s.answer v).answer 0 = s.answer 0 := rfl
  refine Keeps.eq_with_readData (r := exec i s) ?_ ht
  obtain rfl | rfl | rfl | rfl | ⟨m, a, rfl⟩ | ⟨m, a, rfl⟩ := hi
  · exact Keeps.next (hanswer _)
  · exact Keeps.next (hanswer _)
  · exact Keeps.next (hanswer _)
  · exact Keeps.next (hanswer _)
  · exact (keeps_answer hanswer _).hostAccess
  · exact (keeps_answer hanswer _).hostAccess.aligned

end Sys2Proof.Machine
end

section
/-! PROOF. The engine's accesses: it reads pixels of the image only, and never writes SRC
(spec/20_memory.md R53, R60, spec/60_exceptions.md R190). -/

namespace Sys2Proof.Machine

/-! ## SRC during a run -/

@[simp] theorem State.scanTo_src (s : State) (p : Option (Word × Word)) : (s.scanTo p).src = s.src := by
  cases p <;> rfl

section
variable {s t : State}

/-- While BUSY = 1 the host cannot reach SRC (R62). -/
theorem HostEffect.src_of_busy {h : HostInput} (he : HostEffect h s t) (hb : s.busy = true) : t.src = s.src := by
  cases he with
  | answered | ignored => rfl
  | started hd hv hidle | resized hidle w w' | stored hidle hc => simp [hb] at hidle
  | reset hr ht => exact execReset_src ht

theorem EngineEffect.src (he : EngineEffect s t) : t.src = s.src := by
  cases he with
  | zfill hp hu =>
    rw [State.scanTo_src]
    exact State.src_eq_of_hostSide (s.zeroImage_keeps_hostSide _ hu)
  | pack hp hu =>
    rw [State.scanTo_src]
    exact State.src_eq_of_hostSide (s.packPixel_keeps_hostSide _ hu)
  | window | gx | gy | sqsum | root | narrow | complete => rfl

theorem StepEffect.src_of_busy (he : StepEffect s t) (hb : s.busy = true) : t.src = s.src := by
  cases he with
  | host h rest hs he => exact he.src_of_busy hb
  | wait v l ht | idle rest hidle ht => rw [ht]
  | engine rest hb he => exact he.src
  | apply rest hb ht => exact (State.src_eq_of_hostSide (execApply_keeps_hostSide _ t ht)).trans rfl

end

/-! ## The pixels of a window -/

/-- R85: a neighbour is at most one column and one row away. -/
theorem neighbourOffset_bounds (i : Fin 8) :
    (-1 ≤ (neighbourOffset i).1 ∧ (neighbourOffset i).1 ≤ 1) ∧
      -1 ≤ (neighbourOffset i).2 ∧ (neighbourOffset i).2 ≤ 1 := by
  revert i
  decide

/-- R53: every neighbour of an interior pixel is in the image. -/
theorem neighbour_inside {w h x y : Nat} (hi : Interior w h x y) (i : Fin 8) :
    0 ≤ (x : Int) + (neighbourOffset i).1 ∧ (x : Int) + (neighbourOffset i).1 < w ∧
      0 ≤ (y : Int) + (neighbourOffset i).2 ∧ (y : Int) + (neighbourOffset i).2 < h := by
  obtain ⟨hx, hxw, hy, hyh⟩ := hi
  obtain ⟨hdx, hdy⟩ := neighbourOffset_bounds i
  omega

section
variable {s : State}

/-- R53: a channel of a pixel outside the image is a fault. -/
theorem State.channel_of_outside {x y : Int} (k : Nat)
    (h : ¬ (0 ≤ x ∧ x < s.width.toNat ∧ 0 ≤ y ∧ y < s.height.toNat)) :
    s.channel x y k = .error (.outsideImage x y) :=
  if_neg h

/-- R51: a written channel of a pixel of an image that fits can be read. -/
theorem State.channel_of_written {x y : Int} {k : Nat} (hfits : s.imageBytes ≤ s.memBytes)
    (hin : 0 ≤ x ∧ x < s.width.toNat ∧ 0 ≤ y ∧ y < s.height.toNat) (hk : k < 4)
    (hw : (s.src.read (pixelAddr s.width.toNat x.toNat y.toNat + k)).isSome = true) :
    ∃ v, s.channel x y k = .ok v := by
  have hpixel : pixelAddr s.width.toNat x.toNat y.toNat + 4 ≤ s.imageBytes :=
    pixelAddr_add_four_le (by omega) (by omega)
  obtain ⟨v, hv⟩ := State.readByte_of_written (s := s) (m := .src) (by omega) hw
  exact ⟨v, State.channel_eq_ok.mpr ⟨hin, hv⟩⟩

variable (hfits : s.imageBytes ≤ s.memBytes) (hi : Interior s.width.toNat s.height.toNat s.x.toNat s.y.toNat)
  (hw : s.PixelWritten s.x.toNat s.y.toNat)
include hfits hi hw

theorem State.neighbourLuma_of_written (i : Fin 8) : ∃ v, s.neighbourLuma i = .ok v := by
  have hchannel (k : Nat) (hk : k < 3) := State.channel_of_written hfits (neighbour_inside hi i) (by omega) (hw.1 i k hk)
  obtain ⟨b, hb⟩ := hchannel 0 (by decide)
  obtain ⟨g, hg⟩ := hchannel 1 (by decide)
  obtain ⟨r, hr⟩ := hchannel 2 (by decide)
  exact ⟨_, State.neighbourLuma_eq_ok.mpr ⟨b, g, r, hb, hg, hr, rfl⟩⟩

/-- R131: WINDOW answers at an interior pixel of an image that fits and whose needed bytes have been written. -/
theorem State.fillWindow_of_written : ∃ t, s.fillWindow = .next t := by
  obtain ⟨a, ha⟩ := State.channel_of_written (x := s.x.toNat) (y := s.y.toNat) hfits (by omega) (by decide : 3 < 4) hw.2
  choose v hv using State.neighbourLuma_of_written hfits hi hw
  refine ⟨_, State.fillWindow_of_ok (w := ⟨v 0, v 1, v 2, v 3, v 4, v 5, v 6, v 7⟩) (fun i => ?_) ha⟩
  rw [hv i]
  fin_cases i <;> rfl

end

/-! ## The engine's turn in a run that meets the invariant -/

section
variable {s : State}

theorem State.zeroImage_of_fits (h : s.imageBytes ≤ s.memBytes) : ∃ t, s.zeroImage = .next t :=
  ⟨_, State.zeroImage_eq_next.mpr ⟨h, rfl⟩⟩

theorem State.packPixel_of_inside (hfits : s.imageBytes ≤ s.memBytes) (hx : s.x.toNat < s.width.toNat)
    (hy : s.y.toNat < s.height.toNat) : ∃ t, s.packPixel = .next t :=
  ⟨_, State.storePixel_eq_next.mpr ⟨hx, hy, (pixelAddr_add_four_le hx hy).trans hfits, rfl⟩⟩

theorem engineTurn_of_exec {k : Nat} {i : Instr} (hb : s.busy = true) (hk : s.phase.order = some k)
    (hi : decode (.datapath k 0) = .instr i) (he : ∃ t, exec i s = .next t) : ∃ t, engineTurn s = .next t := by
  obtain ⟨t, ht⟩ := he
  exact ⟨t.advance, by rw [engineTurn_of_order hb hk, perform_of_instr hi, ht, andThen_of_next]⟩

/-- The operations that touch a memory find their bytes; the others cannot fail. -/
theorem engineTurn_of_inv (hi : s.Inv) (hb : s.busy = true) (hw : s.SourceWritten) :
    ∃ t, engineTurn s = .next t := by
  have hfits := hi.fits hb
  cases hp : s.phase with
  | zfill => exact engineTurn_of_exec (i := .zfill) hb (congrArg Phase.order hp) rfl (State.zeroImage_of_fits hfits)
  | window =>
    have hin := hi.scan hb (by rw [hp]; decide)
    have hpixel : s.PixelWritten s.x.toNat s.y.toNat := hw _ (by omega) _ (by omega) hin
    exact engineTurn_of_exec (i := .window) hb (congrArg Phase.order hp) rfl
      (State.fillWindow_of_written hfits hin hpixel)
  | pack =>
    have hin := hi.scan hb (by rw [hp]; decide)
    exact engineTurn_of_exec (i := .pack) hb (congrArg Phase.order hp) rfl
      (State.packPixel_of_inside hfits (by omega) (by omega))
  | gx => exact engineTurn_of_exec (i := .gx) hb (congrArg Phase.order hp) rfl ⟨_, rfl⟩
  | gy => exact engineTurn_of_exec (i := .gy) hb (congrArg Phase.order hp) rfl ⟨_, rfl⟩
  | sqsum => exact engineTurn_of_exec (i := .sqsum) hb (congrArg Phase.order hp) rfl ⟨_, rfl⟩
  | root => exact engineTurn_of_exec (i := .root) hb (congrArg Phase.order hp) rfl ⟨_, rfl⟩
  | narrow => exact engineTurn_of_exec (i := .narrow) hb (congrArg Phase.order hp) rfl ⟨_, rfl⟩
  | complete => exact ⟨_, engineTurn_of_no_order hb (congrArg Phase.order hp)⟩

end

/-! ## The obligations of spec/20_memory.md about the engine -/

/-- Settles O51: with no move in the script the step is the engine's turn, which answers from the invariant. -/
theorem engineNeverFails : Obligations.EngineNeverFails := by
  intro s hi hb hw hs
  rw [step_of_script_nil hs]
  exact engineTurn_of_inv hi hb hw

/-- Settles O52: each effect that a step can have while BUSY = 1 leaves SRC alone. -/
theorem runNeverWritesSrc : Obligations.RunNeverWritesSrc :=
  fun _ _ hb ht => (StepEffect.of_step ht).src_of_busy hb

/-- Settles O31: the first channel LUMA reads already faults. -/
theorem lumaOutsideImageFaults : Obligations.LumaOutsideImageFaults := by
  intro s i hout
  have hluma : s.neighbourLuma i =
      .error (.outsideImage (s.x.toNat + (neighbourOffset i).1) (s.y.toNat + (neighbourOffset i).2)) := by
    simp only [State.neighbourLuma, State.channel_of_outside _ hout]
  show s.sample i = _
  rw [State.sample, hluma]

end Sys2Proof.Machine
end

section
/-! PROOF. The encoder and the decoder agree, the number of a host input loses nothing, and the moves that R94 names
(spec/30_encoding.md R85, R90, R94). -/

namespace Sys2Proof.Machine

/-! ## Decoding what the encoder writes (R90) -/

/-- R90's order 3 with lane `i` is LUMA of neighbour `i`. -/
theorem decode_encode_luma (i : Fin 8) : decode (encode (.luma i)) = .instr (.luma i) :=
  dif_pos i.isLt

/-- R178: the byte of a byte write is the data column's low byte. -/
theorem decode_encode_wrb (m : PixelMem) (a : Nat) (v : Byte) :
    decode (encode (.wrb m a v)) = .instr (.wrb m a v) := by
  have hbyte : (v.setWidth 32).setWidth 8 = v := by simp
  show Decoded.instr (.wrb m a ((v.setWidth 32).setWidth 8)) = _
  rw [hbyte]

/-- The decoder undoes the encoder on every well-formed operation; only a 32-bit pixel access needs its alignment (R54). -/
theorem decode_encode {i : Instr} (hw : i.wellFormed = true) : decode (encode i) = .instr i := by
  cases i with
  | luma i => exact decode_encode_luma i
  | wrb m a v => exact decode_encode_wrb m a v
  | wrp m a v => exact decodeMem_write_word (beq_iff_eq.mp hw)
  | rdp m a => exact decodeMem_read_word (beq_iff_eq.mp hw)
  | wrCtrl v | wrStatus v | wrWidth v | wrHeight v => simp [encode, regTxn, decode, decodeReg]
  | _ => rfl

/-! ## Encoding what the decoder reads (R90, R94) -/

/-- The data column as an operation keeps it: nothing of a read's, the low byte of a byte write's. -/
def keptData (t : Txn) : Word :=
  match t.dir with
  | .read => 0
  | .write => if t.width = 1 then (t.data.setWidth 8).setWidth 32 else t.data

/-- The operation that a transaction names is well formed and encodes as the transaction with the data it keeps. -/
def EncodesBack (t : Txn) (i : Instr) : Prop :=
  i.wellFormed = true ∧ encode i = .host (.bus { t with data := keptData t })

theorem encodesBack_of_decodeReg {t : Txn} {i : Instr} (hs : t.space = .reg) (hd : decodeReg t = .instr i) :
    EncodesBack t i := by
  obtain ⟨space, dir, width, addr, data⟩ := t
  simp only [decodeReg] at hd
  split at hd
  · cases hd
  split at hd
  · cases hd
  rename_i hwidth _
  obtain rfl : width = 4 := not_not.mp hwidth
  obtain rfl : space = .reg := hs
  split at hd <;> cases hd <;> exact ⟨rfl, rfl⟩

theorem encodesBack_of_decodeMem {m : PixelMem} {t : Txn} {i : Instr} (hs : t.space = .pixels m)
    (hd : decodeMem m t = .instr i) : EncodesBack t i := by
  obtain ⟨space, dir, width, addr, data⟩ := t
  obtain rfl : space = .pixels m := hs
  simp only [decodeMem] at hd
  split at hd
  · rename_i hbyte
    obtain rfl : width = 1 := hbyte
    cases dir <;> cases hd <;> exact ⟨rfl, rfl⟩
  split at hd
  · rename_i hword
    obtain rfl : width = 4 := hword
    split at hd
    · cases hd
    rename_i halign
    have haligned : (addr % 4 == 0) = true := beq_iff_eq.mpr (not_not.mp halign)
    cases dir <;> cases hd <;> exact ⟨haligned, rfl⟩
  · cases hd

theorem encodesBack_of_decode {t : Txn} {i : Instr} (hd : decode (.host (.bus t)) = .instr i) : EncodesBack t i := by
  unfold decode at hd
  cases hs : t.space with
  | reg => exact encodesBack_of_decodeReg hs (by simpa only [hs] using hd)
  | pixels m => exact encodesBack_of_decodeMem hs (by simpa only [hs] using hd)

theorem keptData_of_word_write {t : Txn} (hd : t.dir = .write) (hw : t.width = 4) : keptData t = t.data := by
  simp [keptData, hd, hw]

theorem keptData_of_byte_write {t : Txn} (hd : t.dir = .write) (hw : t.width = 1) :
    (keptData t).setWidth 8 = t.data.setWidth 8 := by
  simp [keptData, hd, hw]

/-! ## The number of a host input (log 1) -/

/-- Where the number's space field names a space, the number is a transaction of that space. -/
theorem HostInput.ofNat_of_spaceCode {n : Nat} {sp : Space} (h : n / 16 % 4 = spaceCode sp) :
    HostInput.ofNat n = .bus ⟨sp, if n / 64 % 2 = 1 then .write else .read, (n / 128 + 4) % 512,
      n / 2 ^ 48 * 16 + n % 16, BitVec.ofNat 32 (n / 65536)⟩ := by
  unfold HostInput.ofNat
  rw [h]
  match sp with
  | .reg => rfl
  | .pixels .src => rfl
  | .pixels .dst => rfl

theorem spaceCode_lt (sp : Space) : spaceCode sp < 3 := by
  match sp with
  | .reg => decide
  | .pixels .src => decide
  | .pixels .dst => decide

/-- The layout of log 1: its six fields, each below the size of its place, are read back by division. -/
theorem packed_fields {low space dir width data high n : Nat} (hlow : low < 16) (hspace : space < 4) (hdir : dir < 2)
    (hwidth : width < 512) (hdata : data < 2 ^ 32)
    (hn : n = low + 16 * space + 64 * dir + 128 * width + 65536 * data + 2 ^ 48 * high) :
    n % 16 = low ∧ n / 16 % 4 = space ∧ n / 64 % 2 = dir ∧ n / 128 % 512 = width ∧ n / 65536 % 2 ^ 32 = data ∧
      n / 2 ^ 48 = high := by
  have h16 : n / 16 = space + 4 * (dir + 2 * (width + 512 * (data + 2 ^ 32 * high))) := by omega
  have h64 : n / 64 = dir + 2 * (width + 512 * (data + 2 ^ 32 * high)) := by omega
  have h128 : n / 128 = width + 512 * (data + 2 ^ 32 * high) := by omega
  have h65536 : n / 65536 = data + 2 ^ 32 * high := by omega
  refine ⟨?_, ?_, ?_, ?_, ?_, ?_⟩ <;> omega

/-- No field of a transaction is lost in the number that stands for it; the width's place holds 9 bits. -/
theorem HostInput.ofNat_toNat_bus {t : Txn} (hwidth : t.width < 512) :
    HostInput.ofNat (HostInput.bus t).toNat = .bus t := by
  have hdirBit : (if t.dir = .write then 1 else 0) < 2 := by split <;> decide
  obtain ⟨hlow, hspace, hdir, hwidthField, hdata, hhigh⟩ :=
    packed_fields (n := (HostInput.bus t).toNat) (Nat.mod_lt t.addr (by decide))
      ((spaceCode_lt t.space).trans (by decide)) hdirBit (Nat.mod_lt (t.width + 508) (by decide)) t.data.isLt rfl
  rw [HostInput.ofNat_of_spaceCode hspace, hlow, hdir, hhigh]
  show HostInput.bus _ = .bus ⟨t.space, t.dir, t.width, t.addr, t.data⟩
  congr 2
  · cases t.dir <;> rfl
  · omega
  · omega
  · exact BitVec.eq_of_toNat_eq (by rw [BitVec.toNat_ofNat, hdata])

/-! ## Table words, WAIT and neighbours -/

theorem decode_of_decodeTableWord {nbits w : Nat} {i : Instr} (h : decodeTableWord nbits w = some i) :
    decode (.host (HostInput.ofNat (w % 2 ^ nbits))) = .instr i := by
  unfold decodeTableWord at h
  split at h
  · rename_i hi
    rw [hi, Option.some.inj h]
  all_goals cases h

/-- R50, in the integers. -/
theorem cast_pixelAddr_toNat (w : Nat) {u v : Int} (hu : 0 ≤ u) (hv : 0 ≤ v) :
    (pixelAddr w u.toNat v.toNat : Int) = (v * w + u) * 4 := by
  simp only [pixelAddr, Nat.cast_mul, Nat.cast_add, Int.toNat_of_nonneg hu, Int.toNat_of_nonneg hv, Nat.cast_ofNat]

/-! ## The obligations of spec/30_encoding.md -/

/-- Settles O1: `decode_encode`, the round trip constructor by constructor. -/
theorem decodeOfEncodeIsTheInstruction : Obligations.DecodeOfEncodeIsTheInstruction :=
  fun _ hw => decode_encode hw

/-- Settles O2: the data column of the encoding is the one the operation keeps. -/
theorem decodedTransactionEncodesBack : Obligations.DecodedTransactionEncodesBack := by
  intro t i hd
  obtain ⟨hwf, hencode⟩ := encodesBack_of_decode hd
  exact ⟨hwf, keptData t, hencode, keptData_of_word_write, keptData_of_byte_write⟩

/-- Settles O3: the reset input by computation, a transaction field by field. -/
theorem transactionNumberRoundTrips : Obligations.TransactionNumberRoundTrips := by
  intro h hwidth
  cases h with
  | reset => rfl
  | bus t => exact HostInput.ofNat_toNat_bus (hwidth t rfl)

/-- Settles O58: the neighbour is in the image, so no coordinate is cut off at 0, and the rest is R50's formula. -/
theorem neighbourAddressOffsets : Obligations.NeighbourAddressOffsets := by
  intro w h x y i hi
  obtain ⟨hx, hxw, hy, hyh⟩ := neighbour_inside hi i
  constructor
  · rw [cast_pixelAddr_toNat w hx hy, pixelAddr]
    push_cast
    ring
  · exact pixelAddr_add_four_le (by omega) (by omega)

/-- Settles O4: each selector is what the encoder writes for the operation. -/
theorem sampleSelectorsDecode : Obligations.SampleSelectorsDecode :=
  ⟨decode_encode (i := .wrWidth 4) rfl, decode_encode (i := .wrCtrl 1) rfl, decode_encode (i := .rdStatus) rfl,
    decode_encode (i := .wrb .src 3 0x10) rfl, decode_encode (i := .rdp .dst 20) rfl, decode_encode (i := .reset) rfl,
    decode_encode (i := .apply) rfl, decode_encode (i := .pack) rfl⟩

/-- Settles O5: the placed host input is the next move, and taking it off gives the original state back. -/
theorem tableWordRunsNext : Obligations.TableWordRunsNext :=
  fun s _ _ _ hi => perform_of_instr (decode_of_decodeTableWord hi) s

/-- Settles O10: the move is `waitTurn`, whose outcome `waitTurn_eq` gives. -/
theorem waitPollsUntilDone : Obligations.WaitPollsUntilDone := by
  intro s rest hs
  rw [step_of_script_cons hs, makeMove, waitTurn_eq]
  cases hdone : s.done <;> simp [hdone, State.answer, State.statusWord]

end Sys2Proof.Machine
end

section
/-! PROOF. What APPLY leaves in DST: each byte as a function of the image in SRC (spec/40_apply.md R100 to R112). -/

namespace Sys2Proof.Machine

/-! ## An outcome that does not depend on the engine's working state and DST -/

@[simp] theorem State.hostSide_script (s : State) : s.hostSide.script = s.script := rfl
@[simp] theorem State.hostSide_readData (s : State) : s.hostSide.readData = s.readData := rfl
@[simp] theorem State.hostSide_draws (s : State) : s.hostSide.draws = s.draws := rfl

section
variable {s t : State}

theorem State.script_eq_of_hostSide (h : t.hostSide = s.hostSide) : t.script = s.script := by
  rw [← t.hostSide_script, h, s.hostSide_script]

theorem State.readData_eq_of_hostSide (h : t.hostSide = s.hostSide) : t.readData = s.readData := by
  rw [← t.hostSide_readData, h, s.hostSide_readData]

theorem State.draws_eq_of_hostSide (h : t.hostSide = s.hostSide) : t.draws = s.draws := by
  rw [← t.hostSide_draws, h, s.hostSide_draws]

@[simp] theorem State.channel_hostSide (s : State) (x y : Int) (k : Nat) : s.hostSide.channel x y k = s.channel x y k := rfl

theorem State.channel_eq_of_hostSide (h : t.hostSide = s.hostSide) (x y : Int) (k : Nat) :
    t.channel x y k = s.channel x y k := by
  rw [← t.channel_hostSide, h, s.channel_hostSide]

theorem State.neighbourLuma_eq_of_hostSide (h : t.hostSide = s.hostSide) (hx : t.x = s.x) (hy : t.y = s.y) (i : Fin 8) :
    t.neighbourLuma i = s.neighbourLuma i := by
  simp only [State.neighbourLuma, State.channel_eq_of_hostSide h, hx, hy]

@[simp] theorem State.resultByte_hostSide (s : State) (x y k : Nat) : s.hostSide.resultByte x y k = s.resultByte x y k := rfl

/-- R110: the result is a function of the size and of SRC. -/
theorem State.resultByte_eq_of_hostSide (h : t.hostSide = s.hostSide) (x y k : Nat) :
    t.resultByte x y k = s.resultByte x y k := by
  rw [← t.resultByte_hostSide, h, s.resultByte_hostSide]

theorem State.sourceWritten_of_hostSide (h : t.hostSide = s.hostSide) (hw : s.SourceWritten) : t.SourceWritten := by
  have hw' : s.hostSide.SourceWritten := hw
  rw [← h] at hw'
  exact hw'

end

/-! ## The values of one pixel (R120, R133, R134, R150 to R158) -/

/-- R82: the eight bits of a number below 256, read as two's complement. -/
theorem toInt_ofInt_signed8 {v : Nat} (h : v < 256) : (BitVec.ofInt 8 (signed8 v)).toInt = signed8 v := by
  have hv : -128 ≤ signed8 v ∧ signed8 v < 128 := by
    unfold signed8
    split <;> omega
  exact BitVec.toInt_ofInt_eq_self (by decide) (by norm_num; omega) (by norm_num; omega)

theorem lumaValue_toInt (b g r : Byte) : (lumaValue b g r).toInt = signed8 ((b.toNat + g.toNat + r.toNat) / 3) :=
  toInt_ofInt_signed8 (by omega)

/-- LUMA of R100 at neighbour `i` of (x, y). -/
def State.lumaNear (s : State) (x y : Nat) (i : Fin 8) : Int :=
  s.lumaAt (x + (neighbourOffset i).1).toNat (y + (neighbourOffset i).2).toNat

/-- The three offsets of R85, on a coordinate that is cut off at 0 as R100's `x - 1` is. -/
theorem toNat_add_offset (v : Nat) :
    ((v : Int) + -1).toNat = v - 1 ∧ ((v : Int) + 0).toNat = v ∧ ((v : Int) + 1).toNat = v + 1 := by omega

/-- R85, R133: the columns to the east and to the west, as neighbours. -/
theorem State.gxAt_eq_lumaNear (s : State) (x y : Nat) : s.gxAt x y =
    (s.lumaNear x y 2 + 2 * s.lumaNear x y 4 + s.lumaNear x y 7)
      - (s.lumaNear x y 0 + 2 * s.lumaNear x y 3 + s.lumaNear x y 5) := by
  simp only [State.gxAt, State.lumaNear, neighbourOffset, toNat_add_offset]

/-- R85, R134: the rows to the south and to the north, as neighbours. -/
theorem State.gyAt_eq_lumaNear (s : State) (x y : Nat) : s.gyAt x y =
    (s.lumaNear x y 5 + 2 * s.lumaNear x y 6 + s.lumaNear x y 7)
      - (s.lumaNear x y 0 + 2 * s.lumaNear x y 1 + s.lumaNear x y 2) := by
  simp only [State.gyAt, State.lumaNear, neighbourOffset, toNat_add_offset]

section
variable {s : State} {n : Window} {x y : Nat}

/-- R51: a channel that can be read is the byte of R100's formula. -/
theorem State.srcByte_of_channel {u v : Int} {k : Nat} {b : Byte} (h : s.channel u v k = .ok b) :
    s.srcByte u.toNat v.toNat k = b.toNat := by
  obtain ⟨-, hread⟩ := State.channel_eq_ok.mp h
  obtain ⟨-, hread⟩ := State.readByte_eq_ok.mp hread
  have hread : s.src.read (pixelAddr s.width.toNat u.toNat v.toNat + k) = some b := hread
  rw [State.srcByte, hread, Option.getD_some]

/-- R120, R131: the sample of a neighbour is LUMA of R100 there. -/
theorem State.toInt_of_neighbourLuma {i : Fin 8} {v : Byte} (h : s.neighbourLuma i = .ok v) :
    v.toInt = s.lumaNear s.x.toNat s.y.toNat i := by
  obtain ⟨b, g, r, hb, hg, hr, rfl⟩ := State.neighbourLuma_eq_ok.mp h
  rw [lumaValue_toInt, State.lumaNear, State.lumaAt, State.srcByte_of_channel hb, State.srcByte_of_channel hg,
    State.srcByte_of_channel hr]

theorem State.gradX_of_samples (hn : ∀ i, (n.get i).toInt = s.lumaNear x y i) : gradX n = s.gxAt x y := by
  simp only [State.gxAt_eq_lumaNear, ← hn, gradX, Window.get]

theorem State.gradY_of_samples (hn : ∀ i, (n.get i).toInt = s.lumaNear x y i) : gradY n = s.gyAt x y := by
  simp only [State.gyAt_eq_lumaNear, ← hn, gradY, Window.get]

end

/-- The stages between WINDOW and PACK, in the order of R104. -/
def State.computeStages (s : State) : State := s.computeGx.computeGy.computeSs.computeRoot.computeMag

@[simp] theorem State.computeStages_hostSide (s : State) : s.computeStages.hostSide = s.hostSide := by
  simp [State.computeStages, State.hostSide]

@[simp] theorem State.computeStages_dst (s : State) : s.computeStages.dst = s.dst := by simp [State.computeStages]
@[simp] theorem State.computeStages_x (s : State) : s.computeStages.x = s.x := by simp [State.computeStages]
@[simp] theorem State.computeStages_y (s : State) : s.computeStages.y = s.y := by simp [State.computeStages]
@[simp] theorem State.computeStages_alpha (s : State) : s.computeStages.alpha = s.alpha := by simp [State.computeStages]

/-- R133 to R157: MAG from the window. -/
theorem State.computeStages_mag (s : State) :
    s.computeStages.mag.toNat = isqrt (gradX s.n * gradX s.n + gradY s.n * gradY s.n).toNat % 256 := by
  have hgx : s.computeGx.computeGy.gx.toInt = gradX s.n := s.computeGx_toInt
  have hgy : s.computeGx.computeGy.gy.toInt = gradY s.n := s.computeGx.computeGy_toInt
  have hss := State.computeSs_toNat (s := s.computeGx.computeGy) (by rw [hgx]; exact gradX_bounds s.n)
    (by rw [hgy]; exact gradY_bounds s.n)
  rw [hgx, hgy] at hss
  rw [State.computeStages, State.computeMag_toNat, State.computeRoot_toNat, ← hss, Int.toNat_natCast]

/-- Above its last byte, an append has the bytes of its first part. -/
theorem extractLsb'_append_byte {w : Nat} (v : BitVec w) (b : Byte) (j : Nat) :
    (v ++ b).extractLsb' (j + 8) 8 = v.extractLsb' j 8 := by
  rw [BitVec.extractLsb'_append_eq_of_le (Nat.le_add_left 8 j), Nat.add_sub_cancel]

/-- R52, R83: the bytes of an output pixel at rising addresses. -/
theorem byteOfWord_outputPixel (a mag : Byte) {k : Nat} (hk : k < 4) :
    byteOfWord (outputPixel a mag) k = if k = 3 then a else mag := by
  have hlast {w : Nat} (v : BitVec w) : (v ++ mag).extractLsb' 0 8 = mag := BitVec.extractLsb'_append_eq_right
  have h0 := hlast (a ++ mag ++ mag)
  have h1 := (extractLsb'_append_byte _ mag 0).trans (hlast (a ++ mag))
  have h2 := (extractLsb'_append_byte _ mag 8).trans ((extractLsb'_append_byte _ mag 0).trans (hlast a))
  have h3 := (extractLsb'_append_byte _ mag 16).trans
    ((extractLsb'_append_byte _ mag 8).trans ((extractLsb'_append_byte a mag 0).trans a.extractLsb'_eq_self))
  interval_cases k <;> assumption

/-! ## The sequence of one pixel (R104) -/

/-- The scan position set to a pixel. -/
def State.scanAt (s : State) (p : Nat × Nat) : State := { s with x := BitVec.ofNat 32 p.1, y := BitVec.ofNat 32 p.2 }

@[simp] theorem State.scanAt_hostSide (s : State) (p : Nat × Nat) : (s.scanAt p).hostSide = s.hostSide := rfl

section
variable {s t u : State} {p : Nat × Nat}

theorem producePixel_eq_next :
    producePixel p s = .next t ↔ ∃ u, (s.scanAt p).fillWindow = .next u ∧ u.computeStages.packPixel = .next t :=
  andThen_eq_next

theorem State.scanAt_toNat (hp : Interior s.width.toNat s.height.toNat p.1 p.2) :
    (s.scanAt p).x.toNat = p.1 ∧ (s.scanAt p).y.toNat = p.2 := by
  obtain ⟨-, hxw, -, hyh⟩ := hp
  have hw := s.width.isLt
  have hh := s.height.isLt
  exact ⟨(BitVec.toNat_ofNat _ _).trans (Nat.mod_eq_of_lt (by omega)),
    (BitVec.toNat_ofNat _ _).trans (Nat.mod_eq_of_lt (by omega))⟩

/-- WINDOW reads the scan position and does not move it (R131). -/
theorem State.fillWindow_keeps_scan (h : s.fillWindow = .next t) : t.x = s.x ∧ t.y = s.y := by
  obtain ⟨-, -, ht⟩ := State.fillWindow_eq_next.mp h
  rw [ht]
  exact ⟨rfl, rfl⟩

theorem State.packPixel_keeps_scan (h : s.packPixel = .next t) : t.x = s.x ∧ t.y = s.y := by
  obtain ⟨-, -, -, rfl⟩ := State.storePixel_eq_next.mp h
  exact ⟨rfl, rfl⟩

theorem producePixel_scan (h : producePixel p s = .next t) : t.x = BitVec.ofNat 32 p.1 ∧ t.y = BitVec.ofNat 32 p.2 := by
  obtain ⟨u, hu, ht⟩ := producePixel_eq_next.mp h
  obtain ⟨hux, huy⟩ := State.fillWindow_keeps_scan hu
  obtain ⟨htx, hty⟩ := State.packPixel_keeps_scan ht
  exact ⟨htx.trans (u.computeStages_x.trans hux), hty.trans (u.computeStages_y.trans huy)⟩

/-- Whether WINDOW answers depends on the scan position and the host's side alone. -/
theorem State.fillWindow_completes_of_hostSide (h : t.hostSide = s.hostSide) (hx : t.x = s.x) (hy : t.y = s.y)
    (hs : s.fillWindow = .next u) : ∃ v, t.fillWindow = .next v := by
  obtain ⟨hn, ha, -⟩ := State.fillWindow_eq_next.mp hs
  refine ⟨_, State.fillWindow_of_ok (w := u.n) (a := u.alpha) (fun i => ?_) ?_⟩
  · rw [State.neighbourLuma_eq_of_hostSide h hx hy, hn]
  · rw [State.channel_eq_of_hostSide h, hx, hy, ha]

/-- Whether PACK answers depends on the scan position and the host's side alone. -/
theorem State.packPixel_completes_of_hostSide (h : t.hostSide = s.hostSide) (hx : t.x = s.x) (hy : t.y = s.y)
    (hs : s.packPixel = .next u) : ∃ v, t.packPixel = .next v := by
  obtain ⟨hxw, hyh, hfits, -⟩ := State.storePixel_eq_next.mp hs
  refine ⟨_, State.storePixel_eq_next.mpr ⟨?_, ?_, ?_, rfl⟩⟩
  · rwa [hx, State.width_eq_of_hostSide h]
  · rwa [hy, State.height_eq_of_hostSide h]
  · rwa [hx, hy, State.width_eq_of_hostSide h, State.memBytes_eq_of_hostSide h]

/-- Whether the sequence of a pixel answers depends on the host's side alone (R110). -/
theorem producePixel_completes_of_hostSide (h : t.hostSide = s.hostSide) (hs : ∃ u, producePixel p s = .next u) :
    ∃ u, producePixel p t = .next u := by
  obtain ⟨u, hu⟩ := hs
  obtain ⟨v, hv, hu⟩ := producePixel_eq_next.mp hu
  have hscan : (t.scanAt p).hostSide = (s.scanAt p).hostSide := h
  obtain ⟨v', hv'⟩ := State.fillWindow_completes_of_hostSide hscan rfl rfl hv
  obtain ⟨hvx, hvy⟩ := State.fillWindow_keeps_scan hv
  obtain ⟨hvx', hvy'⟩ := State.fillWindow_keeps_scan hv'
  have hside : v'.hostSide = v.hostSide :=
    (State.fillWindow_keeps_hostSide _ _ hv').trans (hscan.trans (State.fillWindow_keeps_hostSide _ _ hv).symm)
  obtain ⟨u', hu'⟩ := State.packPixel_completes_of_hostSide (t := v'.computeStages) (by simp [hside])
    (by simp [hvx, hvx', State.scanAt]) (by simp [hvy, hvy', State.scanAt]) hu
  exact ⟨u', producePixel_eq_next.mpr ⟨v', hv', hu'⟩⟩

/-- R213: the sequence of an interior pixel of an image that fits answers where the bytes it reads have been written. -/
theorem producePixel_of_written (hfits : s.imageBytes ≤ s.memBytes)
    (hp : Interior s.width.toNat s.height.toNat p.1 p.2) (hw : s.PixelWritten p.1 p.2) :
    ∃ t, producePixel p s = .next t := by
  obtain ⟨hx, hy⟩ := State.scanAt_toNat hp
  have hpx : Interior (s.scanAt p).width.toNat (s.scanAt p).height.toNat (s.scanAt p).x.toNat (s.scanAt p).y.toNat := by
    rw [hx, hy]
    exact hp
  have hwx : (s.scanAt p).PixelWritten (s.scanAt p).x.toNat (s.scanAt p).y.toNat := by
    rw [hx, hy]
    exact hw
  obtain ⟨u, hu⟩ := State.fillWindow_of_written (s := s.scanAt p) hfits hpx hwx
  have hside : u.computeStages.hostSide = (s.scanAt p).hostSide :=
    u.computeStages_hostSide.trans (State.fillWindow_keeps_hostSide _ u hu)
  obtain ⟨hux, huy⟩ := State.fillWindow_keeps_scan hu
  obtain ⟨v, hv⟩ := State.packPixel_of_inside (s := s.scanAt p) hfits (by omega) (by omega)
  obtain ⟨t, ht⟩ := State.packPixel_completes_of_hostSide hside (u.computeStages_x.trans hux)
    (u.computeStages_y.trans huy) hv
  exact ⟨t, producePixel_eq_next.mpr ⟨u, hu, ht⟩⟩

/-- R100: the word that the sequence of an interior pixel stores, and where. -/
theorem producePixel_dst (hp : Interior s.width.toNat s.height.toNat p.1 p.2) (h : producePixel p s = .next t) :
    ∃ a mag : Byte, a.toNat = s.srcByte p.1 p.2 3 ∧ mag.toNat = s.magAt p.1 p.2 ∧
      t.dst = s.dst.writeWord (pixelAddr s.width.toNat p.1 p.2) (outputPixel a mag) := by
  obtain ⟨u, hu, ht⟩ := producePixel_eq_next.mp h
  obtain ⟨hx, hy⟩ := State.scanAt_toNat hp
  obtain ⟨hn, ha, -⟩ := State.fillWindow_eq_next.mp hu
  obtain ⟨hux, huy⟩ := State.fillWindow_keeps_scan hu
  have hside : u.computeStages.hostSide = (s.scanAt p).hostSide :=
    u.computeStages_hostSide.trans (State.fillWindow_keeps_hostSide _ u hu)
  have hsamples (i : Fin 8) : (u.n.get i).toInt = s.lumaNear p.1 p.2 i := by
    rw [State.toInt_of_neighbourLuma (hn i), hx, hy]
    rfl
  obtain ⟨-, -, -, rfl⟩ := State.storePixel_eq_next.mp ht
  refine ⟨u.alpha, u.computeStages.mag, ?_, ?_, ?_⟩
  · rw [hx, hy] at ha
    exact (State.srcByte_of_channel ha).symm
  · rw [State.computeStages_mag, State.gradX_of_samples hsamples, State.gradY_of_samples hsamples, State.magAt]
  · simp only [State.computeStages_dst, State.computeStages_x, State.computeStages_y, State.computeStages_alpha, hux, huy,
      hx, hy, State.width_eq_of_hostSide hside, State.fillWindow_dst hu]
    rfl

end

/-! ## Pixels and addresses (R50) -/

/-- The pixel whose four bytes include address `a`, in an image `w` pixels wide. -/
def pixelAt (w a : Nat) : Nat × Nat := (a / 4 % w, a / 4 / w)

theorem pixelAt_pixelAddr {w x k : Nat} (y : Nat) (hx : x < w) (hk : k < 4) : pixelAt w (pixelAddr w x y + k) = (x, y) := by
  have hword : (pixelAddr w x y + k) / 4 = y * w + x := by
    unfold pixelAddr
    omega
  have hrow : (y * w + x) / w = y := by
    rw [Nat.mul_comm, Nat.mul_add_div (by omega), Nat.div_eq_of_lt hx, Nat.add_zero]
  have hcol : (y * w + x) % w = x := by rw [Nat.mul_comm, Nat.mul_add_mod, Nat.mod_eq_of_lt hx]
  rw [pixelAt, hword, hrow, hcol]

theorem pixelAddr_pixelAt (w a : Nat) : pixelAddr w (pixelAt w a).1 (pixelAt w a).2 + a % 4 = a := by
  have hword : a / 4 / w * w + a / 4 % w = a / 4 := by rw [Nat.mul_comm, Nat.div_add_mod]
  rw [pixelAddr, pixelAt, hword, Nat.mul_comm, Nat.div_add_mod]

/-- The four bytes of a pixel are the addresses that lie in it. -/
theorem pixelAt_eq_iff {w a : Nat} {p : Nat × Nat} (hp : p.1 < w) :
    pixelAt w a = p ↔ pixelAddr w p.1 p.2 ≤ a ∧ a < pixelAddr w p.1 p.2 + 4 := by
  constructor
  · rintro rfl
    have ha := pixelAddr_pixelAt w a
    omega
  · rintro ⟨hlo, hhi⟩
    have ha := pixelAt_pixelAddr p.2 hp (show a - pixelAddr w p.1 p.2 < 4 by omega)
    rwa [Nat.add_sub_cancel' hlo] at ha

theorem mem_interiorPixels {w h : Nat} {p : Nat × Nat} : p ∈ interiorPixels w h ↔ Interior w h p.1 p.2 := by
  obtain ⟨x, y⟩ := p
  simp only [interiorPixels, List.mem_flatMap, List.mem_map, List.mem_range, Prod.mk.injEq]
  constructor
  · rintro ⟨j, hj, i, hi, rfl, rfl⟩
    omega
  · rintro ⟨hx, hxw, hy, hyh⟩
    exact ⟨y - 1, by omega, x - 1, by omega, by omega, by omega⟩

/-! ## DST after some pixels, and after APPLY -/

/-- The byte of R100's result at an address. -/
def State.resultAt (s : State) (a : Nat) : Byte :=
  s.resultByte (pixelAt s.width.toNat a).1 (pixelAt s.width.toNat a).2 (a % 4)

theorem State.resultAt_pixelAddr {x k : Nat} (s : State) (y : Nat) (hx : x < s.width.toNat) (hk : k < 4) :
    s.resultAt (pixelAddr s.width.toNat x y + k) = s.resultByte x y k := by
  have hmod : (pixelAddr s.width.toNat x y + k) % 4 = k := by
    unfold pixelAddr
    omega
  rw [State.resultAt, pixelAt_pixelAddr y hx hk, hmod]

section
variable {s t : State}

theorem State.resultAt_eq_of_hostSide (h : t.hostSide = s.hostSide) (a : Nat) : t.resultAt a = s.resultAt a := by
  rw [State.resultAt, State.width_eq_of_hostSide h, State.resultByte_eq_of_hostSide h, State.resultAt]

/-- R107: outside the interior the result is 0. -/
theorem State.resultByte_of_border {x y : Nat} (h : ¬ Interior s.width.toNat s.height.toNat x y) (k : Nat) :
    s.resultByte x y k = 0 :=
  if_neg h

/-- R83, R100: the bytes of an interior pixel of the result, as those of an output pixel. -/
theorem State.resultByte_of_interior {x y k : Nat} {a mag : Byte} (h : Interior s.width.toNat s.height.toNat x y)
    (ha : a.toNat = s.srcByte x y 3) (hmag : mag.toNat = s.magAt x y) :
    s.resultByte x y k = if k = 3 then a else mag := by
  rw [State.resultByte, if_pos h, ← ha, ← hmag]
  split <;> exact BitVec.ofNat_toNat _ _

/-- R106: a pixel's sequence writes the result's bytes at the pixel's own addresses. -/
theorem producePixel_read {p : Nat × Nat} (hp : Interior s.width.toNat s.height.toNat p.1 p.2)
    (h : producePixel p s = .next t) (a : Nat) :
    t.dst.read a = if pixelAt s.width.toNat a = p then some (s.resultAt a) else s.dst.read a := by
  have hx : p.1 < s.width.toNat := by omega
  obtain ⟨alpha, mag, halpha, hmag, hdst⟩ := producePixel_dst hp h
  rw [hdst, Memory.read_writeWord]
  simp only [← pixelAt_eq_iff hx]
  split
  · rename_i hpixel
    have ha := pixelAddr_pixelAt s.width.toNat a
    have hk : a - pixelAddr s.width.toNat p.1 p.2 = a % 4 := by
      rw [hpixel] at ha
      omega
    rw [hk, byteOfWord_outputPixel _ _ (Nat.mod_lt a (by decide)), State.resultAt, hpixel,
      State.resultByte_of_interior hp halpha hmag]
  · rfl

/-- R106: after the sequences of some interior pixels, their bytes are the result's and the others are as before. -/
theorem producePixels_read {ps : List (Nat × Nat)} (hps : ∀ p ∈ ps, Interior s.width.toNat s.height.toNat p.1 p.2)
    (h : producePixels ps s = .next t) (a : Nat) :
    t.dst.read a = if pixelAt s.width.toNat a ∈ ps then some (s.resultAt a) else s.dst.read a := by
  induction ps generalizing s with
  | nil =>
    cases h
    simp
  | cons p ps ih =>
    obtain ⟨u, hu, ht⟩ := andThen_eq_next.mp h
    obtain ⟨hp, hps⟩ := List.forall_mem_cons.mp hps
    have hside : u.hostSide = s.hostSide := producePixel_keeps_hostSide p s u hu
    have hwidth := State.width_eq_of_hostSide hside
    have hheight := State.height_eq_of_hostSide hside
    rw [ih (by rwa [hwidth, hheight]) ht, hwidth, State.resultAt_eq_of_hostSide hside, producePixel_read hp hu]
    by_cases hmem : pixelAt s.width.toNat a ∈ ps <;> simp [hmem]

/-- The sequences of some pixels all answer exactly where each does from the same state (R106). -/
theorem producePixels_completes_iff {ps : List (Nat × Nat)} :
    (∃ t, producePixels ps s = .next t) ↔ ∀ p ∈ ps, ∃ t, producePixel p s = .next t := by
  induction ps generalizing s with
  | nil => simp [producePixels]
  | cons p ps ih =>
    simp only [producePixels, andThen_eq_next, List.forall_mem_cons]
    constructor
    · rintro ⟨t, u, hu, ht⟩
      have hside : u.hostSide = s.hostSide := producePixel_keeps_hostSide p s u hu
      exact ⟨⟨u, hu⟩, fun q hq => producePixel_completes_of_hostSide hside.symm (ih.mp ⟨t, ht⟩ q hq)⟩
    · rintro ⟨⟨u, hu⟩, hps⟩
      have hside : u.hostSide = s.hostSide := producePixel_keeps_hostSide p s u hu
      obtain ⟨t, ht⟩ := ih.mpr fun q hq => producePixel_completes_of_hostSide hside (hps q hq)
      exact ⟨t, u, hu, ht⟩

/-- R213: APPLY answers on an image that fits and whose needed bytes have been written. -/
theorem execApply_of_written (hfits : s.imageBytes ≤ s.memBytes) (hw : s.SourceWritten) : ∃ t, execApply s = .next t := by
  obtain ⟨u, hu⟩ := State.zeroImage_of_fits hfits
  have hside : u.hostSide = s.hostSide := s.zeroImage_keeps_hostSide u hu
  have hpixels : ∃ v, producePixels (interiorPixels u.width.toNat u.height.toNat) u = .next v := by
    refine producePixels_completes_iff.mpr fun p hp => producePixel_completes_of_hostSide hside ?_
    rw [State.width_eq_of_hostSide hside, State.height_eq_of_hostSide hside, mem_interiorPixels] at hp
    exact producePixel_of_written hfits hp (hw _ (by omega) _ (by omega) hp)
  obtain ⟨v, hv⟩ := hpixels
  exact ⟨_, andThen_eq_next.mpr ⟨u, hu, andThen_eq_next.mpr ⟨v, hv, rfl⟩⟩⟩

/-- R100: wherever APPLY answers, the image area of DST holds the result and the rest of DST is as before. -/
theorem execApply_read (h : execApply s = .next t) (a : Nat) :
    t.dst.read a = if a < s.imageBytes then some (s.resultAt a) else s.dst.read a := by
  split
  · rename_i ha
    obtain ⟨u, hu, h⟩ := andThen_eq_next.mp h
    obtain ⟨v, hv, h⟩ := andThen_eq_next.mp h
    have hside : u.hostSide = s.hostSide := s.zeroImage_keeps_hostSide u hu
    have hdst : t.dst = v.dst := by
      cases h
      rfl
    rw [hdst, producePixels_read (fun p hp => mem_interiorPixels.mp hp) hv, State.width_eq_of_hostSide hside,
      State.height_eq_of_hostSide hside, State.resultAt_eq_of_hostSide hside]
    split
    · rfl
    · rename_i hborder
      rw [mem_interiorPixels] at hborder
      obtain ⟨-, rfl⟩ := State.zeroImage_eq_next.mp hu
      rw [Memory.read_setPrefix, if_pos ha, State.resultAt, State.resultByte_of_border hborder]
  · rename_i ha
    exact (execApply_writes_image h).read a (Nat.not_lt.mp ha)

theorem execApply_filteredInto (h : execApply s = .next t) : s.FilteredInto t.dst := by
  constructor
  · intro x y k hx hy hk
    have hpixel : pixelAddr s.width.toNat x y + 4 ≤ s.imageBytes := pixelAddr_add_four_le hx hy
    rw [execApply_read h, if_pos (by omega), s.resultAt_pixelAddr y hx hk]
  · intro a ha
    exact (execApply_writes_image h).read a ha

end

/-! ## What an output pixel depends on (R110, R112) -/

section
variable {s₁ s₂ : State} {x y : Nat}

theorem State.srcByte_congr {u v k : Nat}
    (h : s₁.src.read (pixelAddr s₁.width.toNat u v + k) = s₂.src.read (pixelAddr s₂.width.toNat u v + k)) :
    s₁.srcByte u v k = s₂.srcByte u v k := by
  rw [State.srcByte, h, State.srcByte]

theorem State.magAt_congr (h : ∀ i, s₁.lumaNear x y i = s₂.lumaNear x y i) : s₁.magAt x y = s₂.magAt x y := by
  simp only [State.magAt, State.gxAt_eq_lumaNear, State.gyAt_eq_lumaNear, h]

/-- R112: the colour of the eight neighbours and the pixel's own alpha decide its bytes. -/
theorem State.resultByte_congr (hin₁ : Interior s₁.width.toNat s₁.height.toNat x y)
    (hin₂ : Interior s₂.width.toNat s₂.height.toNat x y)
    (hcolour : ∀ i : Fin 8, ∀ k < 3,
      s₁.srcByte (x + (neighbourOffset i).1).toNat (y + (neighbourOffset i).2).toNat k =
        s₂.srcByte (x + (neighbourOffset i).1).toNat (y + (neighbourOffset i).2).toNat k)
    (halpha : s₁.srcByte x y 3 = s₂.srcByte x y 3) (k : Nat) : s₁.resultByte x y k = s₂.resultByte x y k := by
  have hluma (i : Fin 8) : s₁.lumaNear x y i = s₂.lumaNear x y i := by
    simp only [State.lumaNear, State.lumaAt, hcolour i 0 (by decide), hcolour i 1 (by decide), hcolour i 2 (by decide)]
  rw [State.resultByte, if_pos hin₁, State.resultByte, if_pos hin₂, halpha, State.magAt_congr hluma]

/-- R110: the size and the image bytes of SRC decide the result. -/
theorem State.resultAt_congr (hwidth : s₁.width = s₂.width) (hheight : s₁.height = s₂.height)
    (hsrc : ∀ a, a < s₁.imageBytes → s₁.src.read a = s₂.src.read a) (a : Nat) : s₁.resultAt a = s₂.resultAt a := by
  have hbyte {u v k : Nat} (hu : u < s₁.width.toNat) (hv : v < s₁.height.toNat) (hk : k < 4) :
      s₁.srcByte u v k = s₂.srcByte u v k := by
    have hpixel : pixelAddr s₁.width.toNat u v + 4 ≤ s₁.imageBytes := pixelAddr_add_four_le hu hv
    refine State.srcByte_congr ?_
    rw [← hwidth]
    exact hsrc _ (by omega)
  rw [State.resultAt, State.resultAt, ← hwidth]
  generalize pixelAt s₁.width.toNat a = p
  by_cases hp : Interior s₁.width.toNat s₁.height.toNat p.1 p.2
  · have hp₂ : Interior s₂.width.toNat s₂.height.toNat p.1 p.2 := by rwa [← hwidth, ← hheight]
    refine State.resultByte_congr hp hp₂ (fun i k hk => ?_) (hbyte (by omega) (by omega) (by decide)) _
    obtain ⟨hx, hxw, hy, hyh⟩ := neighbour_inside hp i
    exact hbyte (by omega) (by omega) (by omega)
  · have hp₂ : ¬ Interior s₂.width.toNat s₂.height.toNat p.1 p.2 := by rwa [← hwidth, ← hheight]
    rw [State.resultByte_of_border hp, State.resultByte_of_border hp₂]

end

/-! ## The obligations of spec/40_apply.md about the result -/

/-- Settles O38: each byte below W*H*4 is set to 0, and a read elsewhere passes the write by. -/
theorem zfillClearsTheImageArea : Obligations.ZfillClearsTheImageArea := by
  refine ⟨decode_encode (i := .zfill) rfl, fun s hfits => ?_⟩
  refine ⟨_, State.zeroImage_eq_next.mpr ⟨hfits, rfl⟩, fun a ha => ?_, fun a ha => ?_, rfl⟩
  · exact (Memory.read_setPrefix _ _ _ _).trans (if_pos ha)
  · exact (Memory.read_setPrefix _ _ _ _).trans (if_neg (Nat.not_lt.mpr ha))

/-- Settles O39: APPLY answers, `execApply_read` gives DST byte for byte, and what remains is completion. -/
theorem applyComputesTheFilteredImage : Obligations.ApplyComputesTheFilteredImage := by
  refine ⟨decode_encode (i := .apply) rfl, fun s hfits hw => ?_⟩
  obtain ⟨t, ht⟩ := execApply_of_written hfits hw
  have hside : t.hostSide = s.hostSide := execApply_keeps_hostSide s t ht
  refine ⟨t, ht, execApply_filteredInto ht, State.src_eq_of_hostSide hside, State.width_eq_of_hostSide hside,
    State.height_eq_of_hostSide hside, State.busy_eq_of_hostSide hside, State.done_eq_of_hostSide hside,
    State.err_eq_of_hostSide hside, State.memPixels_eq_of_hostSide hside, State.readData_eq_of_hostSide hside,
    State.script_eq_of_hostSide hside, State.draws_eq_of_hostSide hside, fun hb => ?_⟩
  have hturn : engineTurn t = .next t.completeRun :=
    engineTurn_of_no_order ((State.busy_eq_of_hostSide hside).trans hb) (congrArg Phase.order (execApply_phase ht))
  exact ⟨t.completeRun, hturn, rfl, rfl, rfl⟩

/-- Settles O40: a border pixel is not interior, so its bytes of the result are 0. -/
theorem borderIsTransparentBlack : Obligations.BorderIsTransparentBlack := by
  intro s t h x y k hx hy hk hborder
  have hout : ¬ Interior s.width.toNat s.height.toNat x y := by omega
  rw [← State.resultByte_of_border hout k]
  exact (execApply_filteredInto h).1 x y k hx hy hk

/-- Settles O43: DST below W*H*4 is `resultAt`, which reads the size and the image bytes of SRC only. -/
theorem applyIsPure : Obligations.ApplyIsPure := by
  intro s₁ s₂ t₁ t₂ hwidth hheight hsrc h₁ h₂
  have himage : s₁.imageBytes = s₂.imageBytes := by rw [State.imageBytes, hwidth, hheight, State.imageBytes]
  have hside : t₁.hostSide = s₁.hostSide := execApply_keeps_hostSide s₁ t₁ h₁
  refine ⟨fun a ha => ?_, State.src_eq_of_hostSide hside, State.width_eq_of_hostSide hside,
    State.height_eq_of_hostSide hside⟩
  rw [execApply_read h₁, execApply_read h₂, if_pos ha, if_pos (himage ▸ ha), State.resultAt_congr hwidth hheight hsrc]

/-- Settles O44: both pixels of DST are the result's, which the neighbours' colour and the pixel's alpha decide. -/
theorem outputPixelIsLocal : Obligations.OutputPixelIsLocal := by
  intro s₁ s₂ t₁ t₂ x y hin₁ hin₂ hcolour halpha h₁ h₂ k hk
  rw [(execApply_filteredInto h₁).1 x y k (by omega) (by omega) hk,
    (execApply_filteredInto h₂).1 x y k (by omega) (by omega) hk]
  exact congrArg some (State.resultByte_congr hin₁ hin₂ (fun i j hj => State.srcByte_congr (hcolour i j hj))
    (State.srcByte_congr halpha) k)

/-- Settles O45: whether the sequences answer, and each byte they leave, depends on the set of pixels alone. -/
theorem pixelOrderIsNotObservable : Obligations.PixelOrderIsNotObservable := by
  intro ps qs s t hperm hps ht
  have heach := producePixels_completes_iff.mp ⟨t, ht⟩
  obtain ⟨u, hu⟩ := producePixels_completes_iff.mpr fun q hq => heach q (hperm.mem_iff.mpr hq)
  refine ⟨u, hu, fun a => ?_⟩
  rw [producePixels_read (fun q hq => hps q (hperm.mem_iff.mpr hq)) hu, producePixels_read hps ht]
  simp only [hperm.mem_iff]

end Sys2Proof.Machine
end

section
/-! PROOF. The engine's run, one operation a step: it reaches what APPLY gives as one step, and every run ends
(spec/40_apply.md R104 to R111, spec/44_host_commands.md R180). -/

namespace Sys2Proof.Machine

/-! ## Several steps -/

@[simp] theorem runSteps_zero (s : State) : runSteps 0 s = .next s := rfl

theorem runSteps_succ (k : Nat) (s : State) : runSteps (k + 1) s = andThen (step s) (runSteps k) := rfl

theorem runSteps_add (j k : Nat) (s : State) : runSteps (j + k) s = andThen (runSteps j s) (runSteps k) := by
  induction j generalizing s with
  | zero => rw [Nat.zero_add, runSteps_zero, andThen_of_next]
  | succ j ih =>
    rw [Nat.add_right_comm, runSteps_succ, runSteps_succ, andThen_assoc]
    exact congrArg (andThen (step s)) (funext ih)

section
variable {s t : State}

/-- With no move in the script, a step of a run is the present phase's operation, and the sequencer's advance after it. -/
theorem step_of_phase {k : Nat} {i : Instr} (hb : s.busy = true) (hs : s.script = []) (hk : s.phase.order = some k)
    (hi : decode (.datapath k 0) = .instr i) : step s = andThen (exec i s) fun t => .next t.advance := by
  rw [step_of_script_nil hs, engineTurn_of_order hb hk, perform_of_instr hi]

/-- R180. -/
theorem step_of_complete (hb : s.busy = true) (hs : s.script = []) (hp : s.phase = .complete) :
    step s = .next s.completeRun := by
  rw [step_of_script_nil hs, engineTurn_of_no_order hb (congrArg Phase.order hp)]

/-! ## The scan of the interior pixels (R105) -/

/-- The pixels of a row from column `x` to the last interior one. -/
def rowFrom (w x y : Nat) : List (Nat × Nat) := (List.range' x (w - 1 - x)).map fun u => (u, y)

/-- The interior pixels from a scan position on, in the order of R105. -/
def pixelsFrom (w h : Nat) : Option (Word × Word) → List (Nat × Nat)
  | none => []
  | some (x, y) => rowFrom w x.toNat y.toNat ++ (List.range' (y.toNat + 1) (h - 2 - y.toNat)).flatMap (rowFrom w 1)

theorem rowFrom_cons {w x : Nat} (y : Nat) (hx : x + 1 < w) : rowFrom w x y = (x, y) :: rowFrom w (x + 1) y := by
  have hlen : w - 1 - x = (w - 1 - (x + 1)) + 1 := by omega
  rw [rowFrom, hlen, List.range'_succ, List.map_cons, rowFrom]

theorem rowFrom_nil {w x : Nat} (y : Nat) (hx : w ≤ x + 1) : rowFrom w x y = [] := by
  have hlen : w - 1 - x = 0 := by omega
  rw [rowFrom, hlen, List.range'_zero, List.map_nil]

theorem interiorPixels_eq_rows (w h : Nat) : interiorPixels w h = (List.range' 1 (h - 2)).flatMap (rowFrom w 1) := by
  have hlen : w - 1 - 1 = w - 2 := by omega
  have hrow (j : Nat) : rowFrom w 1 (1 + j) = (List.range (w - 2)).map fun i => (i + 1, j + 1) := by
    rw [rowFrom, hlen, List.range'_eq_map_range, List.map_map]
    simp only [Function.comp_def, Nat.add_comm 1]
  rw [List.range'_eq_map_range, List.flatMap_map]
  simp only [hrow, interiorPixels]

theorem interiorPixels_length (w h : Nat) : (interiorPixels w h).length = (w - 2) * (h - 2) := by
  simp [interiorPixels, List.length_flatMap, Nat.mul_comm]

/-- R105, R108: the scan from the first position goes through every interior pixel, if there is one. -/
theorem pixelsFrom_firstPixel (s : State) :
    pixelsFrom s.width.toNat s.height.toNat s.firstPixel = interiorPixels s.width.toNat s.height.toNat := by
  unfold State.firstPixel
  split
  · rename_i hsize
    have hlen : s.height.toNat - 2 = (s.height.toNat - 2 - 1) + 1 := by omega
    rw [interiorPixels_eq_rows, hlen, List.range'_succ, List.flatMap_cons]
    rfl
  · rename_i hsize
    refine (List.eq_nil_iff_length_eq_zero.mpr ?_).symm
    rw [interiorPixels_length, Nat.mul_eq_zero]
    omega

/-- R105: at an interior pixel the scan goes through it, and then on from the next position. -/
theorem pixelsFrom_nextPixel (hi : Interior s.width.toNat s.height.toNat s.x.toNat s.y.toNat) :
    pixelsFrom s.width.toNat s.height.toNat (some (s.x, s.y)) =
      (s.x.toNat, s.y.toNat) :: pixelsFrom s.width.toNat s.height.toNat s.nextPixel := by
  obtain ⟨hx, hxw, hy, hyh⟩ := hi
  rw [pixelsFrom, rowFrom_cons _ hxw, List.cons_append]
  unfold State.nextPixel
  have hw := s.width.isLt
  have hh := s.height.isLt
  congr 1
  split
  · rename_i hcol
    have hstep : (s.x + 1).toNat = s.x.toNat + 1 := BitVec.toNat_add_of_lt (by simp; omega)
    rw [pixelsFrom, hstep]
  rename_i hend
  rw [rowFrom_nil _ (by omega), List.nil_append]
  split
  · rename_i hrow
    have hstep : (s.y + 1).toNat = s.y.toNat + 1 := BitVec.toNat_add_of_lt (by simp; omega)
    have hlen : s.height.toNat - 2 - s.y.toNat = (s.height.toNat - 2 - (s.y.toNat + 1)) + 1 := by omega
    rw [pixelsFrom, hstep, hlen, List.range'_succ, List.flatMap_cons]
    rfl
  · rename_i hlast
    have hlen : s.height.toNat - 2 - s.y.toNat = 0 := by omega
    rw [hlen, pixelsFrom, List.range'_zero, List.flatMap_nil]

/-- The same, for the state that the sequencer has put at the position. -/
theorem pixelsFrom_some {p : Word × Word} (hp : Interior s.width.toNat s.height.toNat p.1.toNat p.2.toNat) :
    pixelsFrom s.width.toNat s.height.toNat (some p) =
      (p.1.toNat, p.2.toNat) :: pixelsFrom s.width.toNat s.height.toNat (s.scanTo (some p)).nextPixel :=
  pixelsFrom_nextPixel (s := s.scanTo (some p)) hp

end

/-! ## The sequencer's place -/

/-- The sequencer put before the operation of a phase. -/
def State.withPhase (s : State) (p : Phase) : State := { s with phase := p }

@[simp] theorem State.withPhase_scanTo (s : State) (p : Phase) (q : Option (Word × Word)) :
    (s.withPhase p).scanTo q = s.scanTo q := by
  cases q <;> rfl

theorem State.scanTo_some (s : State) (q : Word × Word) :
    s.scanTo (some q) = (s.scanAt (q.1.toNat, q.2.toNat)).withPhase .window := by
  simp [State.scanAt, State.withPhase, State.scanTo]

@[simp] theorem State.neighbourLuma_withPhase (s : State) (p : Phase) (i : Fin 8) :
    (s.withPhase p).neighbourLuma i = s.neighbourLuma i := rfl

/-- An operation that does not read the sequencer's place and leaves it alone. -/
def IgnoresPhase (f : State → Result) : Prop :=
  ∀ s p, f (s.withPhase p) = andThen (f s) fun t => .next (t.withPhase p)

theorem IgnoresPhase.andThen {f g : State → Result} (hf : IgnoresPhase f) (hg : IgnoresPhase g) :
    IgnoresPhase fun s => andThen (f s) g := by
  intro s p
  show Machine.andThen (f (s.withPhase p)) g = Machine.andThen (Machine.andThen (f s) g) _
  rw [hf, andThen_assoc, andThen_assoc]
  exact congrArg _ (funext fun t => hg t p)

theorem ignoresPhase_sample (i : Fin 8) : IgnoresPhase fun s => s.sample i := by
  intro s p
  simp only [State.sample, State.neighbourLuma_withPhase]
  cases s.neighbourLuma i <;> rfl

theorem ignoresPhase_sampleAll (is : List (Fin 8)) : IgnoresPhase (sampleAll is) := by
  induction is with
  | nil => exact fun _ _ => rfl
  | cons i is ih => exact (ignoresPhase_sample i).andThen ih

theorem ignoresPhase_sampleAlpha : IgnoresPhase State.sampleAlpha := by
  intro s p
  have hchannel : (s.withPhase p).channel (s.withPhase p).x.toNat (s.withPhase p).y.toNat 3 =
    s.channel s.x.toNat s.y.toNat 3 := rfl
  rw [State.sampleAlpha, hchannel, State.sampleAlpha]
  cases s.channel s.x.toNat s.y.toNat 3 <;> rfl

theorem ignoresPhase_fillWindow : IgnoresPhase State.fillWindow :=
  (ignoresPhase_sampleAll _).andThen ignoresPhase_sampleAlpha

theorem ignoresPhase_packPixel : IgnoresPhase State.packPixel := by
  intro s p
  simp only [State.packPixel, State.storePixel, State.memBytes, State.withPhase]
  by_cases hin : s.x.toNat < s.width.toNat ∧ s.y.toNat < s.height.toNat
  · by_cases hfits : pixelAddr s.width.toNat s.x.toNat s.y.toNat + 4 ≤ 4 * s.memPixels
    · simp [hin, hfits]
    · simp [hin, hfits]
  · simp [hin]

/-! ## The seven steps of a pixel (R104; log 17) -/

theorem State.nextPixel_eq_of_hostSide {s t : State} (h : t.hostSide = s.hostSide) (hx : t.x = s.x) (hy : t.y = s.y) :
    t.nextPixel = s.nextPixel := by
  rw [State.nextPixel, State.width_eq_of_hostSide h, State.height_eq_of_hostSide h, hx, hy, State.nextPixel]

/-- A run in which the host makes no move. -/
structure State.Running (s : State) : Prop where
  busy : s.busy = true
  script : s.script = []

section
variable {s t : State}

theorem State.Running.of_hostSide (hr : s.Running) (h : t.hostSide = s.hostSide) : t.Running :=
  ⟨(State.busy_eq_of_hostSide h).trans hr.busy, (State.script_eq_of_hostSide h).trans hr.script⟩

theorem State.Running.withPhase (hr : s.Running) (p : Phase) : (s.withPhase p).Running := ⟨hr.busy, hr.script⟩
theorem State.Running.computeGx (hr : s.Running) : s.computeGx.Running := ⟨hr.busy, hr.script⟩
theorem State.Running.computeGy (hr : s.Running) : s.computeGy.Running := ⟨hr.busy, hr.script⟩
theorem State.Running.computeSs (hr : s.Running) : s.computeSs.Running := ⟨hr.busy, hr.script⟩
theorem State.Running.computeRoot (hr : s.Running) : s.computeRoot.Running := ⟨hr.busy, hr.script⟩
theorem State.Running.computeMag (hr : s.Running) : s.computeMag.Running := ⟨hr.busy, hr.script⟩

/-- A step that performs one of the stages which read no memory. -/
theorem runSteps_of_stage {k : Nat} {i : Instr} {f : State → State} {p q : Phase} (hk : p.order = some k)
    (hi : decode (.datapath k 0) = .instr i) (he : ∀ v, exec i v = .next (f v))
    (hf : ∀ v r, f (v.withPhase r) = (f v).withPhase r) (hadvance : ∀ v, (State.withPhase v p).advance = v.withPhase q)
    (hr : s.Running) (j : Nat) : runSteps (j + 1) (s.withPhase p) = runSteps j ((f s).withPhase q) := by
  rw [runSteps_succ, step_of_phase (hr.withPhase p).busy (hr.withPhase p).script hk hi, he, hf, andThen_of_next, hadvance,
    andThen_of_next]

theorem runSteps_of_pack (hr : s.Running) :
    runSteps 1 (s.withPhase .pack) = andThen s.packPixel fun t => .next (t.scanTo t.nextPixel) := by
  have hadvance (v : State) : (v.withPhase .pack).advance = v.scanTo v.nextPixel := v.withPhase_scanTo .pack v.nextPixel
  have hexec : exec .pack (s.withPhase .pack) = (s.withPhase .pack).packPixel := rfl
  rw [runSteps_succ, step_of_phase (i := .pack) (hr.withPhase .pack).busy (hr.withPhase .pack).script rfl rfl, hexec,
    ignoresPhase_packPixel, andThen_assoc, andThen_assoc]
  simp only [andThen_of_next, hadvance, runSteps_zero]

/-- After WINDOW, six steps take the present pixel through the other stages and PACK, and go to the next position. -/
theorem runSteps_of_stages (hr : s.Running) :
    runSteps 6 (s.withPhase .gx) = andThen s.computeStages.packPixel fun t => .next (t.scanTo t.nextPixel) :=
  calc runSteps 6 (s.withPhase .gx)
    _ = runSteps 5 (s.computeGx.withPhase .gy) :=
      runSteps_of_stage (i := .gx) rfl rfl (fun _ => rfl) (fun _ _ => rfl) (fun _ => rfl) hr 5
    _ = runSteps 4 (s.computeGx.computeGy.withPhase .sqsum) :=
      runSteps_of_stage (i := .gy) rfl rfl (fun _ => rfl) (fun _ _ => rfl) (fun _ => rfl) hr.computeGx 4
    _ = runSteps 3 (s.computeGx.computeGy.computeSs.withPhase .root) :=
      runSteps_of_stage (i := .sqsum) rfl rfl (fun _ => rfl) (fun _ _ => rfl) (fun _ => rfl) hr.computeGx.computeGy 3
    _ = runSteps 2 (s.computeGx.computeGy.computeSs.computeRoot.withPhase .narrow) :=
      runSteps_of_stage (i := .root) rfl rfl (fun _ => rfl) (fun _ _ => rfl) (fun _ => rfl)
        hr.computeGx.computeGy.computeSs 2
    _ = runSteps 1 (s.computeStages.withPhase .pack) :=
      runSteps_of_stage (i := .narrow) rfl rfl (fun _ => rfl) (fun _ _ => rfl) (fun _ => rfl)
        hr.computeGx.computeGy.computeSs.computeRoot 1
    _ = andThen s.computeStages.packPixel fun t => .next (t.scanTo t.nextPixel) :=
      runSteps_of_pack hr.computeGx.computeGy.computeSs.computeRoot.computeMag

/-- R104: from a scan position, seven steps are the sequence of its pixel, and go to the next position. -/
theorem runSteps_of_pixel (hr : s.Running) (q : Word × Word) :
    runSteps 7 (s.scanTo (some q)) =
      andThen (producePixel (q.1.toNat, q.2.toNat) s) fun t => .next (t.scanTo t.nextPixel) := by
  generalize hp : (q.1.toNat, q.2.toNat) = p
  have hrp : (s.scanAt p).Running := hr.of_hostSide (s.scanAt_hostSide p)
  have hexec : exec .window ((s.scanAt p).withPhase .window) = ((s.scanAt p).withPhase .window).fillWindow := rfl
  have hpixel : producePixel p s = andThen (s.scanAt p).fillWindow fun u => u.computeStages.packPixel := rfl
  rw [State.scanTo_some, hp, runSteps_succ, step_of_phase (i := .window) (hrp.withPhase .window).busy
    (hrp.withPhase .window).script rfl rfl, hexec, ignoresPhase_fillWindow, hpixel, andThen_assoc, andThen_assoc,
    andThen_assoc]
  cases hu : (s.scanAt p).fillWindow with
  | fault e => rfl
  | refused e => rfl
  | next u =>
    exact runSteps_of_stages (hrp.of_hostSide (State.fillWindow_keeps_hostSide _ u hu))

/-- A pixel's sequence leaves the scan position at the pixel. -/
theorem producePixel_scan_words {q : Word × Word} (h : producePixel (q.1.toNat, q.2.toNat) s = .next t) :
    t.x = q.1 ∧ t.y = q.2 := by
  obtain ⟨hx, hy⟩ := producePixel_scan h
  simp [hx, hy]

/-- R105: from a scan position in the image, seven steps a pixel are the sequences of the pixels from there on. -/
theorem runSteps_of_scan {q : Option (Word × Word)} (hr : s.Running)
    (hq : ∀ p, q = some p → Interior s.width.toNat s.height.toNat p.1.toNat p.2.toNat) :
    runSteps (7 * (pixelsFrom s.width.toNat s.height.toNat q).length) (s.scanTo q) =
      andThen (producePixels (pixelsFrom s.width.toNat s.height.toNat q) s) fun t => .next (t.withPhase .complete) := by
  generalize hps : pixelsFrom s.width.toNat s.height.toNat q = ps
  induction ps generalizing s q with
  | nil =>
    cases q with
    | none => rfl
    | some p =>
      rw [pixelsFrom_some (hq p rfl)] at hps
      cases hps
  | cons p' ps ih =>
    cases q with
    | none => cases hps
    | some p =>
      rw [pixelsFrom_some (hq p rfl)] at hps
      obtain ⟨rfl, hrest⟩ := List.cons.inj hps
      rw [List.length_cons, Nat.mul_succ, Nat.add_comm, runSteps_add, runSteps_of_pixel hr, producePixels, andThen_assoc,
        andThen_assoc]
      cases ht : producePixel (p.1.toNat, p.2.toNat) s with
      | fault e => rfl
      | refused e => rfl
      | next t =>
        have hside : t.hostSide = s.hostSide := producePixel_keeps_hostSide _ s t ht
        have hwidth := State.width_eq_of_hostSide hside
        have hheight := State.height_eq_of_hostSide hside
        obtain ⟨hx, hy⟩ := producePixel_scan_words ht
        have hnext : t.nextPixel = (s.scanTo (some p)).nextPixel :=
          State.nextPixel_eq_of_hostSide (hside.trans (s.scanTo_hostSide _).symm) hx hy
        have hin : Interior t.width.toNat t.height.toNat t.x.toNat t.y.toNat := by
          rw [hwidth, hheight, hx, hy]
          exact hq p rfl
        refine ih (hr.of_hostSide hside) (fun r hr => State.interior_of_nextPixel hin hr) ?_
        rw [hnext, hwidth, hheight]
        exact hrest

/-- D24, R106: the run from its beginning, one operation a step, is APPLY taken as one step, faults included. -/
theorem runSteps_of_beginning (hr : s.Running) (hp : s.phase = .zfill) :
    runSteps (1 + 7 * ((s.width.toNat - 2) * (s.height.toNat - 2))) s = execApply s := by
  have hexec : exec .zfill s = s.zeroImage := rfl
  rw [Nat.add_comm, runSteps_succ, step_of_phase (i := .zfill) hr.busy hr.script (congrArg Phase.order hp) rfl, hexec,
    andThen_assoc, execApply]
  cases ht : s.zeroImage with
  | fault e => rfl
  | refused e => rfl
  | next t =>
    have hside : t.hostSide = s.hostSide := s.zeroImage_keeps_hostSide t ht
    have hscan := runSteps_of_scan (hr.of_hostSide hside) (q := t.firstPixel) fun p hp => State.interior_of_firstPixel hp
    rw [pixelsFrom_firstPixel, interiorPixels_length, State.width_eq_of_hostSide hside,
      State.height_eq_of_hostSide hside] at hscan
    rw [andThen_of_next, andThen_of_next, State.advance_of_zfill ((State.zeroImage_phase ht).trans hp), andThen_of_next,
      hscan, State.width_eq_of_hostSide hside, State.height_eq_of_hostSide hside]
    rfl

end

/-! ## From START to STATUS = 2 (R174, R180) -/

section
variable {s t : State}

/-- The beginning of the run that an accepted START gives, the START being off the script (R174). -/
def State.startedRun (s : State) : State := ({ s with script := [] } : State).clearResult.beginRun

theorem State.startedRun_running (s : State) : s.startedRun.Running := ⟨rfl, rfl⟩

/-- R174: the step of a START that an idle block accepts. -/
theorem step_of_start (hb : s.busy = false) (hfits : s.imageBytes ≤ s.memBytes)
    (hs : s.script = [.host (.bus ⟨.reg, .write, 4, 0x00, 1⟩)]) : step s = .next s.startedRun := by
  have hstart : execWrCtrl 1 { s with script := [] } = .next ({ s with script := [] } : State).start := if_pos ⟨rfl, hb⟩
  rw [step_of_script_cons hs]
  exact hstart.trans (congrArg _ (State.start_of_fits hfits))

/-- R100, R180: after APPLY the run has one step left, its completion. -/
theorem runSteps_to_completion (hr : s.Running) (hp : s.phase = .zfill) :
    runSteps (2 + 7 * ((s.width.toNat - 2) * (s.height.toNat - 2))) s =
      andThen (execApply s) fun t => .next t.completeRun := by
  rw [Nat.add_assoc 1 1, Nat.add_comm 1, runSteps_add, runSteps_of_beginning hr hp]
  cases ht : execApply s with
  | fault e => rfl
  | refused e => rfl
  | next t =>
    have hrt : t.Running := hr.of_hostSide (execApply_keeps_hostSide s t ht)
    rw [andThen_of_next, andThen_of_next, runSteps_succ, step_of_complete hrt.busy hrt.script (execApply_phase ht)]
    rfl

/-- R174, R180: an accepted START, the run one operation a step, and its completion. -/
theorem runSteps_of_start (hb : s.busy = false) (hfits : s.imageBytes ≤ s.memBytes)
    (hs : s.script = [.host (.bus ⟨.reg, .write, 4, 0x00, 1⟩)]) :
    runSteps (3 + 7 * ((s.width.toNat - 2) * (s.height.toNat - 2))) s =
      andThen (execApply s.startedRun) fun t => .next t.completeRun := by
  rw [Nat.add_assoc 1 2, Nat.add_comm 1, runSteps_succ, step_of_start hb hfits hs, andThen_of_next]
  exact runSteps_to_completion s.startedRun_running rfl

theorem State.completeRun_statusWord (herr : s.err = false) : s.completeRun.statusWord = 2 := by
  have hbits : s.completeRun.busy = false ∧ s.completeRun.done = true ∧ s.completeRun.err = false := ⟨rfl, rfl, herr⟩
  obtain ⟨hb, hd, he⟩ := hbits
  rw [State.statusWord_eq, hb, hd, he]
  rfl

/-- R108: without interior pixels APPLY is ZFILL. -/
theorem execApply_of_small (hfits : s.imageBytes ≤ s.memBytes) (hsmall : s.width.toNat ≤ 2 ∨ s.height.toNat ≤ 2) :
    execApply s = .next { s with dst := s.dst.setPrefix s.imageBytes fun _ => 0, phase := .complete } := by
  have hnone : interiorPixels s.width.toNat s.height.toNat = [] := by
    rw [List.eq_nil_iff_length_eq_zero, interiorPixels_length, Nat.mul_eq_zero]
    omega
  rw [execApply, State.zeroImage, if_pos hfits, andThen_of_next, hnone, producePixels, andThen_of_next]

/-- R108: what three steps from the START of an image without interior pixels leave. -/
theorem runSteps_of_small (hb : s.busy = false) (hfits : s.imageBytes ≤ s.memBytes)
    (hsmall : s.width.toNat ≤ 2 ∨ s.height.toNat ≤ 2)
    (hs : s.script = [.host (.bus ⟨.reg, .write, 4, 0x00, 1⟩)]) :
    ∃ t, runSteps 3 s = .next t ∧ t.statusWord = 2 ∧ t.dst = s.dst.setPrefix s.imageBytes (fun _ => 0) ∧ t.src = s.src ∧
      t.width = s.width ∧ t.height = s.height := by
  have hcount : 3 + 7 * ((s.width.toNat - 2) * (s.height.toNat - 2)) = 3 := by
    have hzero : (s.width.toNat - 2) * (s.height.toNat - 2) = 0 := by
      rw [Nat.mul_eq_zero]
      omega
    rw [hzero]
  have hrun := runSteps_of_start hb hfits hs
  rw [hcount, execApply_of_small (s := s.startedRun) hfits hsmall, andThen_of_next] at hrun
  exact ⟨_, hrun, State.completeRun_statusWord rfl, rfl, rfl, rfl, rfl⟩

end

/-! ## How many steps a run has left (R111; log 17) -/

/-- The steps of a pixel from a phase of its sequence on; before it and after it, none. -/
def Phase.stepsOfPixel : Phase → Nat
  | .zfill => 0
  | .window => 7
  | .gx => 6
  | .gy => 5
  | .sqsum => 4
  | .root => 3
  | .narrow => 2
  | .pack => 1
  | .complete => 0

/-- The steps from a scan position to the end of the run: seven for each pixel, and completion. -/
def State.stepsFrom (s : State) (q : Option (Word × Word)) : Nat :=
  7 * (pixelsFrom s.width.toNat s.height.toNat q).length + 1

/-- The steps of a run from here to its end. -/
def State.stepsLeft (s : State) : Nat :=
  match s.phase with
  | .zfill => s.stepsFrom s.firstPixel + 1
  | .complete => 1
  | p => p.stepsOfPixel + s.stepsFrom s.nextPixel

section
variable {s t : State}

theorem State.stepsLeft_of_zfill (h : s.phase = .zfill) : s.stepsLeft = s.stepsFrom s.firstPixel + 1 := by
  rw [State.stepsLeft, h]

theorem State.stepsLeft_of_complete (h : s.phase = .complete) : s.stepsLeft = 1 := by
  rw [State.stepsLeft, h]

theorem State.stepsLeft_of_perPixel (h : s.phase.perPixel) :
    s.stepsLeft = s.phase.stepsOfPixel + s.stepsFrom s.nextPixel := by
  unfold State.stepsLeft
  split
  · rename_i hp
    exact absurd hp h.1
  · rename_i hp
    exact absurd hp h.2
  · rfl

theorem State.stepsFrom_eq_of_hostSide (h : t.hostSide = s.hostSide) (q : Option (Word × Word)) :
    t.stepsFrom q = s.stepsFrom q := by
  rw [State.stepsFrom, State.width_eq_of_hostSide h, State.height_eq_of_hostSide h, State.stepsFrom]

theorem State.stepsLeft_scanTo {q : Option (Word × Word)}
    (hq : ∀ p, q = some p → Interior s.width.toNat s.height.toNat p.1.toNat p.2.toNat) :
    (s.scanTo q).stepsLeft = s.stepsFrom q := by
  cases q with
  | none => rfl
  | some p =>
    have hpixels : (pixelsFrom s.width.toNat s.height.toNat (some p)).length =
        (pixelsFrom s.width.toNat s.height.toNat (s.scanTo (some p)).nextPixel).length + 1 :=
      congrArg List.length (pixelsFrom_some (hq p rfl))
    calc (s.scanTo (some p)).stepsLeft
      _ = 7 + (7 * (pixelsFrom s.width.toNat s.height.toNat (s.scanTo (some p)).nextPixel).length + 1) :=
        State.stepsLeft_of_perPixel ⟨nofun, nofun⟩
      _ = s.stepsFrom (some p) := by
        rw [State.stepsFrom, hpixels]
        omega

/-- A step from one stage of a pixel to the next. -/
theorem State.stepsLeft_of_stage {p p' : Phase} (hp : s.phase = p) (hp' : t.phase = p')
    (hside : t.hostSide = s.hostSide) (hx : t.x = s.x) (hy : t.y = s.y)
    (hsteps : p.perPixel ∧ p'.perPixel ∧ p.stepsOfPixel = p'.stepsOfPixel + 1 := by decide) :
    s.stepsLeft = t.stepsLeft + 1 := by
  obtain ⟨hpixel, hpixel', hsteps⟩ := hsteps
  rw [State.stepsLeft_of_perPixel (hp ▸ hpixel), State.stepsLeft_of_perPixel (hp' ▸ hpixel'), hp, hp', hsteps,
    State.nextPixel_eq_of_hostSide hside hx hy, State.stepsFrom_eq_of_hostSide hside]
  omega

/-- Each step of a run but completion takes one off the number of steps left. -/
theorem EngineEffect.stepsLeft (he : EngineEffect s t) (hi : s.Inv) (hb : s.busy = true) (hrun : s.phase ≠ .complete) :
    s.stepsLeft = t.stepsLeft + 1 := by
  cases he with
  | @zfill u hp hu =>
    have hside := s.zeroImage_keeps_hostSide u hu
    have hfirst : u.firstPixel = s.firstPixel := by
      rw [State.firstPixel, State.width_eq_of_hostSide hside, State.height_eq_of_hostSide hside, State.firstPixel]
    rw [State.stepsLeft_of_zfill hp, State.stepsLeft_scanTo fun q hq => State.interior_of_firstPixel hq, hfirst,
      State.stepsFrom_eq_of_hostSide hside]
  | window hp hn ha => exact State.stepsLeft_of_stage (p' := .gx) hp rfl rfl rfl rfl
  | gx hp => exact State.stepsLeft_of_stage (p' := .gy) hp rfl rfl rfl rfl
  | gy hp => exact State.stepsLeft_of_stage (p' := .sqsum) hp rfl rfl rfl rfl
  | sqsum hp => exact State.stepsLeft_of_stage (p' := .root) hp rfl rfl rfl rfl
  | root hp => exact State.stepsLeft_of_stage (p' := .narrow) hp rfl rfl rfl rfl
  | narrow hp => exact State.stepsLeft_of_stage (p' := .pack) hp rfl rfl rfl rfl
  | @pack u hp hu =>
    have hpixel : s.phase.perPixel := by
      rw [hp]
      decide
    have hside := s.packPixel_keeps_hostSide u hu
    obtain ⟨hx, hy⟩ := State.packPixel_keeps_scan hu
    have hin : Interior u.width.toNat u.height.toNat u.x.toNat u.y.toNat := by
      rw [State.width_eq_of_hostSide hside, State.height_eq_of_hostSide hside, hx, hy]
      exact hi.scan hb hpixel
    rw [State.stepsLeft_of_perPixel hpixel, hp, State.stepsLeft_scanTo fun q hq => State.interior_of_nextPixel hin hq,
      State.nextPixel_eq_of_hostSide hside hx hy, State.stepsFrom_eq_of_hostSide hside]
    exact Nat.add_comm 1 _
  | complete hc => exact absurd hc hrun

theorem EngineEffect.hostSide (he : EngineEffect s t) (hrun : s.phase ≠ .complete) : t.hostSide = s.hostSide := by
  cases he with
  | @zfill u hp hu => exact (u.scanTo_hostSide _).trans (s.zeroImage_keeps_hostSide u hu)
  | @pack u hp hu => exact (u.scanTo_hostSide _).trans (s.packPixel_keeps_hostSide u hu)
  | window | gx | gy | sqsum | root | narrow => rfl
  | complete hc => exact absurd hc hrun

/-- R24: no error is set while BUSY = 1. -/
theorem State.Inv.err_of_busy (hi : s.Inv) (hb : s.busy = true) : s.err = false := by
  obtain ⟨hdone, herr⟩ := hi.status
  by_contra h
  exact absurd (herr (Bool.not_eq_false _ ▸ h)) (by simp [hdone hb])

theorem State.stepsLeft_pos (s : State) : 0 < s.stepsLeft := by
  unfold State.stepsLeft
  split
  · exact Nat.succ_pos _
  · exact Nat.one_pos
  · exact Nat.add_pos_right _ (Nat.succ_pos _)

/-- R111, R180: a run that meets the invariant ends after the steps it has left, with STATUS = 2. -/
theorem runSteps_stepsLeft (hi : s.Inv) (hr : s.Running) (hw : s.SourceWritten) :
    ∃ t, runSteps s.stepsLeft s = .next t ∧ t.statusWord = 2 := by
  induction hn : s.stepsLeft generalizing s with
  | zero => exact absurd hn s.stepsLeft_pos.ne'
  | succ n ih =>
    by_cases hp : s.phase = .complete
    · have hlast : n = 0 := Nat.succ.inj (hn.symm.trans (State.stepsLeft_of_complete hp))
      refine ⟨s.completeRun, ?_, State.completeRun_statusWord (hi.err_of_busy hr.busy)⟩
      rw [hlast, runSteps_succ, step_of_complete hr.busy hr.script hp, andThen_of_next, runSteps_zero]
    · obtain ⟨t, ht⟩ := engineTurn_of_inv hi hr.busy hw
      have he := EngineEffect.of_engineTurn hr.busy ht
      have hside := he.hostSide hp
      have hleft : t.stepsLeft = n := Nat.succ.inj ((he.stepsLeft hi hr.busy hp).symm.trans hn)
      obtain ⟨u, hu, hstatus⟩ :=
        ih (he.inv hi hr.busy) (hr.of_hostSide hside) (State.sourceWritten_of_hostSide hside hw) hleft
      refine ⟨u, ?_, hstatus⟩
      rw [runSteps_succ, step_of_script_nil hr.script, ht, andThen_of_next, hu]

/-- R105: from an interior position on there are at most all the interior pixels. -/
theorem pixelsFrom_length_le {w h : Nat} {p : Word × Word} (hp : Interior w h p.1.toNat p.2.toNat) :
    (pixelsFrom w h (some p)).length ≤ (w - 2) * (h - 2) := by
  obtain ⟨hx, -, hy, hyh⟩ := hp
  have hlen : (pixelsFrom w h (some p)).length = (w - 1 - p.1.toNat) + (w - 2) * (h - 2 - p.2.toNat) := by
    simp [pixelsFrom, rowFrom, List.length_flatMap, Nat.mul_comm, Nat.sub_sub]
  calc (pixelsFrom w h (some p)).length
    _ = (w - 1 - p.1.toNat) + (w - 2) * (h - 2 - p.2.toNat) := hlen
    _ ≤ (w - 2) * (h - 2 - p.2.toNat) + (w - 2) := by omega
    _ = (w - 2) * (h - 2 - p.2.toNat + 1) := (Nat.mul_succ _ _).symm
    _ ≤ (w - 2) * (h - 2) := Nat.mul_le_mul_left _ (by omega)

theorem Phase.stepsOfPixel_le (p : Phase) : p.stepsOfPixel ≤ 7 := by
  cases p <;> decide

theorem State.stepsLeft_le (hi : s.Inv) (hb : s.busy = true) :
    s.stepsLeft ≤ 2 + 7 * ((s.width.toNat - 2) * (s.height.toNat - 2)) := by
  by_cases hpixel : s.phase.perPixel
  · have hin := hi.scan hb hpixel
    have hle := pixelsFrom_length_le (p := (s.x, s.y)) hin
    rw [pixelsFrom_nextPixel hin, List.length_cons] at hle
    have hsteps := s.phase.stepsOfPixel_le
    rw [State.stepsLeft_of_perPixel hpixel, State.stepsFrom]
    omega
  · obtain hp | hp : s.phase = .zfill ∨ s.phase = .complete := by
      rwa [not_and_or, not_not, not_not] at hpixel
    · rw [State.stepsLeft_of_zfill hp, State.stepsFrom, pixelsFrom_firstPixel, interiorPixels_length]
      omega
    · rw [State.stepsLeft_of_complete hp]
      omega

end

/-! ## The obligations of spec/40_apply.md about a run -/

/-- Settles O41: the image area is what ZFILL leaves, as there is no interior pixel. -/
theorem smallImageIsAllZero : Obligations.SmallImageIsAllZero := by
  intro s hb hsmall hfits hs
  obtain ⟨t, ht, hstatus, hdst, hsrc, hwidth, hheight⟩ := runSteps_of_small hb hfits hsmall hs
  refine ⟨t, ht, hstatus, fun a ha => ?_, fun a ha => ?_, hsrc, hwidth, hheight⟩
  · rw [hdst, Memory.read_setPrefix, if_pos ha]
  · rw [hdst, Memory.read_setPrefix, if_neg (Nat.not_lt.mpr ha)]

/-- Settles O42: an image of no bytes fits every capacity, and ZFILL writes none of it. -/
theorem emptyImageTouchesNothing : Obligations.EmptyImageTouchesNothing := by
  intro s hb hempty hs
  have hbytes : s.imageBytes = 0 := by
    obtain h | h := hempty <;> simp [State.imageBytes, h]
  have hsmall : s.width.toNat ≤ 2 ∨ s.height.toNat ≤ 2 := by
    obtain h | h := hempty <;> simp [h]
  obtain ⟨t, ht, hstatus, hdst, hsrc, hwidth, hheight⟩ := runSteps_of_small hb (hbytes ▸ Nat.zero_le _) hsmall hs
  refine ⟨t, ht, hstatus, ?_, hsrc, hwidth, hheight⟩
  rw [hdst, hbytes, Memory.setPrefix_zero]

/-- Settles O46: `runSteps_of_beginning`, an equality of outcomes. -/
theorem engineRunRefinesApply : Obligations.EngineRunRefinesApply :=
  fun _ hb hp hs => runSteps_of_beginning ⟨hb, hs⟩ hp

/-- Settles O47: each step takes one off `State.stepsLeft`, which is within the bound from the invariant. -/
theorem everyRunEnds : Obligations.EveryRunEnds := by
  intro s hi hb hw hs
  obtain ⟨t, ht, hstatus⟩ := runSteps_stepsLeft hi ⟨hb, hs⟩ hw
  exact ⟨s.stepsLeft, t, State.stepsLeft_le hi hb, ht, hstatus⟩

end Sys2Proof.Machine
end

section
/-! PROOF. LUMA of one neighbour, from its three colour bytes alone (spec/41_luma.md R120, spec/42_gradient.md R131). -/

namespace Sys2Proof.Machine

/-! ## LUMA of three given colour bytes -/

section
variable {s : State}

/-- R51: the byte that SRC holds there is the channel of a pixel of an image that fits. -/
theorem State.channel_of_read {x y : Int} {k : Nat} {v : Byte} (hfits : s.imageBytes ≤ s.memBytes)
    (hin : 0 ≤ x ∧ x < s.width.toNat ∧ 0 ≤ y ∧ y < s.height.toNat) (hk : k < 4)
    (hv : s.src.read (pixelAddr s.width.toNat x.toNat y.toNat + k) = some v) : s.channel x y k = .ok v := by
  have hpixel : pixelAddr s.width.toNat x.toNat y.toNat + 4 ≤ s.imageBytes :=
    pixelAddr_add_four_le (by omega) (by omega)
  exact State.channel_eq_ok.mpr ⟨hin, State.readByte_eq_ok.mpr ⟨by omega, hv⟩⟩

/-- The alpha byte at offset 3 is in no hypothesis: LUMA does not read it (D31). -/
theorem State.neighbourLuma_of_read {i : Fin 8} {b g r : Byte} {a : Nat} (hfits : s.imageBytes ≤ s.memBytes)
    (hi : Interior s.width.toNat s.height.toNat s.x.toNat s.y.toNat)
    (ha : a = pixelAddr s.width.toNat (s.x.toNat + (neighbourOffset i).1).toNat (s.y.toNat + (neighbourOffset i).2).toNat)
    (hb : s.src.read a = some b) (hg : s.src.read (a + 1) = some g) (hr : s.src.read (a + 2) = some r) :
    s.neighbourLuma i = .ok (lumaValue b g r) := by
  subst ha
  have hin := neighbour_inside hi i
  exact State.neighbourLuma_eq_ok.mpr ⟨b, g, r, State.channel_of_read hfits hin (by decide) hb,
    State.channel_of_read hfits hin (by decide) hg, State.channel_of_read hfits hin (by decide) hr, rfl⟩

/-- R131: what LUMA leaves in the window, register by register. -/
theorem execLuma_of_value {i : Fin 8} {v : Byte} (h : s.neighbourLuma i = .ok v) :
    ∃ t, exec (.luma i) s = .next t ∧ t.n.get i = v ∧ (∀ j, j ≠ i → t.n.get j = s.n.get j) ∧ t = { s with n := t.n } :=
  ⟨_, State.sample_eq_next.mpr ⟨v, h, rfl⟩, by rw [Window.get_set, if_pos rfl],
    fun j hj => by rw [Window.get_set, if_neg hj], rfl⟩

end

/-! ## The obligation of spec/41_luma.md -/

/-- Settles O28: the neighbour of an interior pixel is in the image, so its three bytes are read, and the sample is
`lumaValue` of them, which the 8-bit register holds exactly. -/
theorem lumaOfANeighbour : Obligations.LumaOfANeighbour := by
  refine ⟨decode_encode_luma, fun s i b g r hfits hi hb hg hr => ?_⟩
  obtain ⟨t, ht, hvalue, hothers, hframe⟩ := execLuma_of_value (State.neighbourLuma_of_read hfits hi rfl hb hg hr)
  refine ⟨t, ht, ?_, hothers, hframe⟩
  rw [hvalue, lumaValue_toInt, signed8]
  push_cast
  rfl

end Sys2Proof.Machine
end

section
/-! PROOF. The window, its two gradients and their laws, and the symmetries of APPLY (spec/42_gradient.md R131 to R138). -/

namespace Sys2Proof.Machine

/-! ## WINDOW (R131) -/

section
variable {s t : State}

/-- R85, R131: the pixel of each neighbour, in the numbering of R28. -/
theorem State.lumaNear_eq_lumaAt (s : State) (x y : Nat) :
    s.lumaNear x y 0 = s.lumaAt (x - 1) (y - 1) ∧ s.lumaNear x y 1 = s.lumaAt x (y - 1) ∧
      s.lumaNear x y 2 = s.lumaAt (x + 1) (y - 1) ∧ s.lumaNear x y 3 = s.lumaAt (x - 1) y ∧
      s.lumaNear x y 4 = s.lumaAt (x + 1) y ∧ s.lumaNear x y 5 = s.lumaAt (x - 1) (y + 1) ∧
      s.lumaNear x y 6 = s.lumaAt x (y + 1) ∧ s.lumaNear x y 7 = s.lumaAt (x + 1) (y + 1) := by
  simp only [State.lumaNear, neighbourOffset, toNat_add_offset, and_self]

/-- R131: what WINDOW leaves in n[0..7] and in ALPHA. -/
theorem State.fillWindow_samples (h : s.fillWindow = .next t) :
    (∀ i, (t.n.get i).toInt = s.lumaNear s.x.toNat s.y.toNat i) ∧ t.alpha.toNat = s.srcByte s.x.toNat s.y.toNat 3 := by
  obtain ⟨hn, ha, -⟩ := State.fillWindow_eq_next.mp h
  exact ⟨fun i => State.toInt_of_neighbourLuma (hn i), (State.srcByte_of_channel ha).symm⟩

end

/-! ## Laws of the two gradients (R136, R138) -/

/-- R138 (d): the NE and SW terms cancel in the sum. -/
theorem gradX_add_gradY (n : Window) : gradX n + gradY n =
    2 * (n.n4.toInt + n.n7.toInt + n.n6.toInt - n.n0.toInt - n.n3.toInt - n.n1.toInt) := by
  unfold gradX gradY
  ring

/-- R136: the NW and SE terms cancel in the difference. -/
theorem gradX_sub_gradY (n : Window) : gradX n - gradY n =
    2 * (n.n1.toInt + n.n2.toInt + n.n4.toInt - n.n3.toInt - n.n5.toInt - n.n6.toInt) := by
  unfold gradX gradY
  ring

theorem abs_three_less_three_le (a b c d e f : Byte) :
    |2 * (a.toInt + b.toInt + c.toInt - d.toInt - e.toInt - f.toInt)| ≤ 1530 := by
  have hlo (v : Byte) : -128 ≤ v.toInt := v.le_toInt
  have hhi (v : Byte) : v.toInt < 128 := v.toInt_lt
  rw [abs_le]
  constructor <;> linarith [hlo a, hlo b, hlo c, hlo d, hlo e, hlo f, hhi a, hhi b, hhi c, hhi d, hhi e, hhi f]

/-- R136: the bounds of 1020 are not reached together, for one of the sum and the difference is the sum of the two sizes. -/
theorem abs_gradX_add_abs_gradY_le (n : Window) : |gradX n| + |gradY n| ≤ 1530 := by
  have hsum := gradX_add_gradY n ▸ abs_three_less_three_le n.n4 n.n7 n.n6 n.n0 n.n3 n.n1
  have hdiff := gradX_sub_gradY n ▸ abs_three_less_three_le n.n1 n.n2 n.n4 n.n3 n.n5 n.n6
  rw [abs_le] at hsum hdiff
  rcases abs_choice (gradX n) with hx | hx <;> rcases abs_choice (gradY n) with hy | hy <;> rw [hx, hy] <;> omega

/-- The corners of the region that R136 leaves to two gradients have the largest sum of squares. -/
theorem sum_of_squares_le {a b : Int} (ha : |a| ≤ 1020) (hb : |b| ≤ 1020) (hab : |a| + |b| ≤ 1530) :
    a * a + b * b ≤ 1300500 := by
  rw [← abs_mul_abs_self a, ← abs_mul_abs_self b]
  rcases le_total |a| 510 with hsmall | hlarge
  · have haa := mul_self_le_mul_self (abs_nonneg a) hsmall
    have hbb := mul_self_le_mul_self (abs_nonneg b) hb
    linarith
  · have hbb : |b| * |b| ≤ (1530 - |a|) * (1530 - |a|) := mul_self_le_mul_self (abs_nonneg b) (by linarith)
    have hcorner : 0 ≤ (|a| - 510) * (1020 - |a|) := mul_nonneg (by linarith) (by linarith)
    linarith

/-- R151. -/
theorem gradient_squares_le (n : Window) : gradX n * gradX n + gradY n * gradY n ≤ 1300500 :=
  sum_of_squares_le (abs_le.mpr (gradX_bounds n)) (abs_le.mpr (gradY_bounds n)) (abs_gradX_add_abs_gradY_le n)

/-! ## The symmetries of the magnitude (R137) -/

section
variable {r s : State} {w h x y : Nat}

/-- Mirroring left to right exchanges east with west, which negates GX. -/
theorem State.magAt_of_leftRight (hluma : ∀ u v, u < w → v < h → r.lumaAt u v = s.lumaAt (w - 1 - u) v)
    (hin : Interior w h x y) : r.magAt x y = s.magAt (w - 1 - x) y := by
  have heast : w - 1 - (x - 1) = w - 1 - x + 1 := by omega
  have hwest : w - 1 - (x + 1) = w - 1 - x - 1 := by omega
  have hgx : r.gxAt x y = -s.gxAt (w - 1 - x) y := by
    simp (disch := omega) only [State.gxAt, hluma, heast, hwest]
    ring
  have hgy : r.gyAt x y = s.gyAt (w - 1 - x) y := by
    simp (disch := omega) only [State.gyAt, hluma, heast, hwest]
    ring
  rw [State.magAt, hgx, hgy, neg_mul_neg, State.magAt]

/-- Mirroring top to bottom exchanges north with south, which negates GY. -/
theorem State.magAt_of_upsideDown (hluma : ∀ u v, u < w → v < h → r.lumaAt u v = s.lumaAt u (h - 1 - v))
    (hin : Interior w h x y) : r.magAt x y = s.magAt x (h - 1 - y) := by
  have hsouth : h - 1 - (y - 1) = h - 1 - y + 1 := by omega
  have hnorth : h - 1 - (y + 1) = h - 1 - y - 1 := by omega
  have hgx : r.gxAt x y = s.gxAt x (h - 1 - y) := by
    simp (disch := omega) only [State.gxAt, hluma, hsouth, hnorth]
    ring
  have hgy : r.gyAt x y = -s.gyAt x (h - 1 - y) := by
    simp (disch := omega) only [State.gyAt, hluma, hsouth, hnorth]
    ring
  rw [State.magAt, hgx, hgy, neg_mul_neg, State.magAt]

/-- Transposing exchanges GX with GY. -/
theorem State.magAt_of_transposed (hluma : ∀ u v, u < w → v < h → r.lumaAt u v = s.lumaAt v u)
    (hin : Interior w h x y) : r.magAt x y = s.magAt y x := by
  have hgx : r.gxAt x y = s.gyAt y x := by
    simp (disch := omega) only [State.gxAt, State.gyAt, hluma]
  have hgy : r.gyAt x y = s.gxAt y x := by
    simp (disch := omega) only [State.gxAt, State.gyAt, hluma]
  rw [State.magAt, hgx, hgy, add_comm, State.magAt]

end

/-! ## APPLY of two images whose pixels correspond (R138 (c)) -/

section
variable {r s t u : State}

theorem State.srcByte_of_samePixel {x y x' y' k : Nat} (h : SamePixel r.src r.width.toNat x y s.src s.width.toNat x' y')
    (hk : k < 4) : r.srcByte x y k = s.srcByte x' y' k := by
  rw [State.srcByte, h k hk, State.srcByte]

theorem State.lumaAt_of_samePixel {x y x' y' : Nat} (h : SamePixel r.src r.width.toNat x y s.src s.width.toNat x' y') :
    r.lumaAt x y = s.lumaAt x' y' := by
  simp only [State.lumaAt, State.srcByte_of_samePixel h (by decide : 0 < 4),
    State.srcByte_of_samePixel h (by decide : 1 < 4), State.srcByte_of_samePixel h (by decide : 2 < 4)]

/-- The pixel at (x, y) of one image's output is the one at (f x y, g x y) of the other's, where the pixels of the two images
correspond in this way, interior ones to interior ones, and the magnitude follows them. -/
theorem execApply_samePixel {f g : Nat → Nat → Nat} (ht : execApply s = .next t) (hu : execApply r = .next u)
    (himage : ∀ x y, x < r.width.toNat → y < r.height.toNat → f x y < s.width.toNat ∧ g x y < s.height.toNat ∧
      (Interior r.width.toNat r.height.toNat x y ↔ Interior s.width.toNat s.height.toNat (f x y) (g x y)))
    (hmag : (∀ x y, x < r.width.toNat → y < r.height.toNat → r.lumaAt x y = s.lumaAt (f x y) (g x y)) →
      ∀ x y, Interior r.width.toNat r.height.toNat x y → r.magAt x y = s.magAt (f x y) (g x y))
    (hsrc : ∀ x y, x < r.width.toNat → y < r.height.toNat →
      SamePixel r.src r.width.toNat x y s.src s.width.toNat (f x y) (g x y))
    (x y : Nat) (hx : x < r.width.toNat) (hy : y < r.height.toNat) :
    SamePixel u.dst r.width.toNat x y t.dst s.width.toNat (f x y) (g x y) := by
  intro k hk
  obtain ⟨hfx, hgy, hin⟩ := himage x y hx hy
  rw [(execApply_filteredInto hu).1 x y k hx hy hk, (execApply_filteredInto ht).1 _ _ k hfx hgy hk]
  by_cases hp : Interior r.width.toNat r.height.toNat x y
  · have hluma : ∀ x y, x < r.width.toNat → y < r.height.toNat → r.lumaAt x y = s.lumaAt (f x y) (g x y) :=
      fun x y hx hy => State.lumaAt_of_samePixel (hsrc x y hx hy)
    rw [State.resultByte, if_pos hp, State.resultByte, if_pos (hin.mp hp), hmag hluma x y hp,
      State.srcByte_of_samePixel (hsrc x y hx hy) (by decide : 3 < 4)]
  · rw [State.resultByte_of_border hp, State.resultByte_of_border (mt hin.mpr hp)]

end

/-! ## The obligations of spec/42_gradient.md -/

/-- Settles O29: WINDOW answers, and its samples are LUMA of R100 at the pixels of R85. -/
theorem windowSamplesNinePixels : Obligations.WindowSamplesNinePixels := by
  refine ⟨decode_encode (i := .window) rfl, fun s hfits hin hw => ?_⟩
  obtain ⟨t, ht⟩ := State.fillWindow_of_written hfits hin hw
  obtain ⟨-, -, hframe⟩ := State.fillWindow_eq_next.mp ht
  obtain ⟨hn, halpha⟩ := State.fillWindow_samples ht
  obtain ⟨h0, h1, h2, h3, h4, h5, h6, h7⟩ := s.lumaNear_eq_lumaAt s.x.toNat s.y.toNat
  exact ⟨t, ht, (hn 0).trans h0, (hn 1).trans h1, (hn 2).trans h2, (hn 3).trans h3, (hn 4).trans h4, (hn 5).trans h5,
    (hn 6).trans h6, (hn 7).trans h7, halpha, hframe⟩

/-- Settles O32: the gradient of any window fits the 11 bits of GX. -/
theorem gxIsTheHorizontalGradient : Obligations.GxIsTheHorizontalGradient :=
  ⟨decode_encode (i := .gx) rfl, fun s => ⟨s.computeGx, rfl, s.computeGx_toInt, rfl⟩⟩

/-- Settles O33: the gradient of any window fits the 11 bits of GY. -/
theorem gyIsTheVerticalGradient : Obligations.GyIsTheVerticalGradient :=
  ⟨decode_encode (i := .gy) rfl, fun s => ⟨s.computeGy, rfl, s.computeGy_toInt, rfl⟩⟩

/-- Settles O57: the sum of the gradients is twice an integer, and the window of R136 with GX = 510 and GY = 1020 reaches
the largest sum of squares. -/
theorem gradientBounds : Obligations.GradientBounds := by
  constructor
  · intro n
    obtain ⟨hxlo, hxhi⟩ := gradX_bounds n
    obtain ⟨hylo, hyhi⟩ := gradY_bounds n
    have hparity : (gradX n + gradY n) % 2 = 0 := by
      rw [gradX_add_gradY]
      exact Int.mul_emod_right 2 _
    exact ⟨hxlo, hxhi, hylo, hyhi, hparity, gradient_squares_le n⟩
  · exact ⟨⟨128, 128, 128, 128, 127, 127, 127, 127⟩, by decide⟩

/-- Settles O59: each symmetry takes the interior to the interior, and the sum of the squares of the gradients with it. -/
theorem mirroredImageMirrorsTheOutput : Obligations.MirroredImageMirrorsTheOutput := by
  intro s r t u ht hu
  refine ⟨fun hwidth hheight => ?_, fun hwidth hheight => ?_, fun hwidth hheight => ?_⟩
  · have hpixel := execApply_samePixel (f := fun x _ => s.width.toNat - 1 - x) (g := fun _ y => y) ht hu
    rw [hwidth, hheight] at hpixel
    exact hpixel (fun x y hx hy => by omega) fun hluma x y => State.magAt_of_leftRight hluma
  · have hpixel := execApply_samePixel (f := fun x _ => x) (g := fun _ y => s.height.toNat - 1 - y) ht hu
    rw [hwidth, hheight] at hpixel
    exact hpixel (fun x y hx hy => by omega) fun hluma x y => State.magAt_of_upsideDown hluma
  · have hpixel := execApply_samePixel (f := fun _ y => y) (g := fun x _ => x) ht hu
    rw [hwidth, hheight] at hpixel
    exact hpixel (fun x y hx hy => by omega) fun hluma x y => State.magAt_of_transposed hluma

end Sys2Proof.Machine
end

section
/-! PROOF. The magnitude of one pixel and its store: the root from above, the narrowing in both modes and the four bytes of
PACK (spec/43_magnitude.md R150 to R159). -/

namespace Sys2Proof.Machine

/-! ## The root (R153) -/

/-- With fuel for every digit, the next root is too large: a digit that is not taken was refused by its own test, and one that
is taken leaves 2(q + 1), whose square is four times a square above n / 4. -/
theorem lt_isqrtDigits_add_one_mul_self {fuel n : Nat} (hn : n ≤ fuel) :
    n < (isqrtDigits fuel n + 1) * (isqrtDigits fuel n + 1) := by
  induction fuel generalizing n with
  | zero => exact Nat.lt_succ_of_le hn
  | succ fuel ih =>
    rw [isqrtDigits]
    dsimp only
    split
    · omega
    have hquarter : n / 4 + 1 ≤ (isqrtDigits fuel (n / 4) + 1) * (isqrtDigits fuel (n / 4) + 1) := ih (by omega)
    split
    · calc n < 4 * (n / 4 + 1) := by omega
        _ ≤ 4 * ((isqrtDigits fuel (n / 4) + 1) * (isqrtDigits fuel (n / 4) + 1)) := Nat.mul_le_mul_left 4 hquarter
        _ = (2 * isqrtDigits fuel (n / 4) + 1 + 1) * (2 * isqrtDigits fuel (n / 4) + 1 + 1) := by ring
    · exact Nat.not_le.mp ‹_›

/-- The upper half of R153. -/
theorem lt_isqrt_add_one_mul_self (n : Nat) : n < (isqrt n + 1) * (isqrt n + 1) :=
  lt_isqrtDigits_add_one_mul_self le_rfl

/-! ## The store of PACK (R159) -/

/-- R52, R83: DST at and around a stored output pixel. -/
theorem Memory.read_writeWord_outputPixel (m : Memory) (a : Nat) (alpha mag : Byte) :
    (∀ k, k < 4 → (m.writeWord a (outputPixel alpha mag)).read (a + k) = some (if k = 3 then alpha else mag)) ∧
      ∀ b, b < a ∨ a + 4 ≤ b → (m.writeWord a (outputPixel alpha mag)).read b = m.read b := by
  constructor
  · intro k hk
    rw [Memory.read_writeWord, if_pos (by omega), Nat.add_sub_cancel_left, byteOfWord_outputPixel _ _ hk]
  · intro b hb
    rw [Memory.read_writeWord, if_neg (by omega)]

/-! ## The obligations of spec/43_magnitude.md -/

/-- Settles O34: the sum of the squares of two gradients fits the 21 bits of SS. -/
theorem sqsumIsTheSumOfSquares : Obligations.SqsumIsTheSumOfSquares :=
  ⟨decode_encode (i := .sqsum) rfl, fun s => ⟨s.computeSs, rfl, rfl,
    fun hxlo hxhi hylo hyhi => State.computeSs_toNat ⟨hxlo, hxhi⟩ ⟨hylo, hyhi⟩⟩⟩

/-- Settles O35: ROOT holds `isqrt` of SS, and the two halves of R153 enclose SS. -/
theorem rootIsTheIntegerSquareRoot : Obligations.RootIsTheIntegerSquareRoot := by
  refine ⟨decode_encode (i := .root) rfl, fun s => ⟨s.computeRoot, rfl, ?_, ?_, rfl⟩⟩
  · rw [State.computeRoot_toNat]
    exact isqrt_mul_self_le s.ss.toNat
  · rw [State.computeRoot_toNat]
    exact lt_isqrt_add_one_mul_self s.ss.toNat

/-- Settles O36: NARROW_MODE is WRAP. -/
theorem narrowKeepsTheLowEightBits : Obligations.NarrowKeepsTheLowEightBits :=
  ⟨decode_encode (i := .narrow) rfl, fun s => ⟨s.computeMag, rfl, s.computeMag_toNat, rfl⟩⟩

/-- Settles O37: a pixel of an image that fits is stored, and its bytes are those of the output pixel. -/
theorem packStoresTheOutputPixel : Obligations.PackStoresTheOutputPixel := by
  refine ⟨decode_encode (i := .pack) rfl, fun s hfits hx hy => ?_⟩
  obtain ⟨t, ht⟩ := State.packPixel_of_inside hfits hx hy
  obtain ⟨-, -, -, rfl⟩ := State.storePixel_eq_next.mp ht
  obtain ⟨hbytes, hothers⟩ :=
    s.dst.read_writeWord_outputPixel (pixelAddr s.width.toNat s.x.toNat s.y.toNat) s.alpha s.mag
  exact ⟨_, ht, hbytes 0 (by decide), hbytes 1 (by decide), hbytes 2 (by decide), hbytes 3 (by decide), hothers, rfl⟩

/-- Settles O60: at most 255, the root is not changed by the clamp and fits the 8 bits of MAG. -/
theorem narrowingIsIdentityBelow256 : Obligations.NarrowingIsIdentityBelow256 := by
  intro mode r hr
  have hfits : (BitVec.ofNat 8 r).toNat = r := (BitVec.toNat_ofNat r 8).trans (Nat.mod_eq_of_lt (by omega))
  cases mode with
  | wrap => exact hfits
  | saturate => rw [narrowTo8, Nat.min_eq_left hr, hfits]

end Sys2Proof.Machine
end

section
/-! PROOF. What the host's transactions do to the registers and to the pixel memories, and how a run goes on and ends
(spec/44_host_commands.md R170 to R181). -/

namespace Sys2Proof.Machine

/-! ## Register transactions (R172 to R177) -/

/-- R94: a read's data column is not looked at. -/
theorem decode_read_data (sp : Space) (width a : Nat) (d : Word) :
    decode (.host (.bus ⟨sp, .read, width, a, d⟩)) = decode (.host (.bus ⟨sp, .read, width, a, 0⟩)) := by
  cases sp with
  | reg =>
    simp only [decode, decodeReg]
    congr 2
    -- the arms that keep the data column are those of a write
    split <;> simp_all
  | pixels m => rfl

section
variable {s : State} {v : Word}

/-- R175. -/
theorem execWrWidth_of_busy (hb : s.busy = true) : execWrWidth v s = .next s :=
  if_pos hb

/-- R172. -/
theorem execWrWidth_of_idle (hb : s.busy = false) : execWrWidth v s = .next { s with width := v } :=
  if_neg (Bool.eq_false_iff.mp hb)

/-- R175. -/
theorem execWrHeight_of_busy (hb : s.busy = true) : execWrHeight v s = .next s :=
  if_pos hb

/-- R172. -/
theorem execWrHeight_of_idle (hb : s.busy = false) : execWrHeight v s = .next { s with height := v } :=
  if_neg (Bool.eq_false_iff.mp hb)

/-- R174: an accepted START. -/
theorem execWrCtrl_of_start (hv : v.getLsbD 0 = true) (hb : s.busy = false) : execWrCtrl v s = .next s.start :=
  if_pos ⟨hv, hb⟩

/-- R174: without bit 0 a WR_CTRL is no START. -/
theorem execWrCtrl_of_bit_clear (hv : v.getLsbD 0 = false) : execWrCtrl v s = .next s :=
  if_neg fun h => Bool.eq_false_iff.mp hv h.1

/-- R175. -/
theorem execWrCtrl_of_busy (hb : s.busy = true) : execWrCtrl v s = .next s :=
  if_neg fun h => Bool.eq_false_iff.mp h.2 hb

end

/-- R176: the bits of STATUS above ERR are 0. -/
theorem State.statusWord_lt (s : State) : s.statusWord.toNat < 8 := by
  rw [State.statusWord_eq]
  cases s.busy <;> cases s.done <;> cases s.err <;> decide

/-- R24, R87: the values of STATUS. -/
theorem State.statusWord_of_legal {s : State} (h : s.StatusLegal) :
    s.statusWord = 0 ∨ s.statusWord = 1 ∨ s.statusWord = 2 ∨ s.statusWord = 6 := by
  obtain ⟨hbusy, herr⟩ := h
  rw [State.statusWord_eq]
  revert hbusy herr
  cases s.busy <;> cases s.done <;> cases s.err <;> decide

/-! ## Register accesses that reach no register (R181) -/

section
variable {t : Txn}

theorem decodeReg_of_unmapped (hw : t.width = 4) (ha : t.addr % 4 = 0) (hout : 0x10 ≤ t.addr) :
    decodeReg t = if t.dir = .read then .unmappedRead else .unmappedWrite := by
  unfold decodeReg
  rw [if_neg (not_not.mpr hw), if_neg (not_not.mpr ha)]
  -- the registers' own arms have offsets below 0x10
  split <;> simp_all

theorem decodeReg_of_not_regShape (h : t.width ≠ 4 ∨ t.addr % 4 ≠ 0) : ∃ r, decodeReg t = .rejected r := by
  unfold decodeReg
  by_cases hw : t.width ≠ 4
  · exact ⟨.regWidth, if_pos hw⟩
  · exact ⟨.regOffset, by rw [if_neg hw, if_pos (h.resolve_left hw)]⟩

/-- R170. -/
theorem step_of_register_transaction {s : State} {rest : List Move} (hs : s.script = .host (.bus t) :: rest)
    (hreg : t.space = .reg) : step s = perform (decodeReg t) { s with script := rest } := by
  rw [step_of_script_cons hs, makeMove, decode, hreg]

end

/-! ## Pixel memory transactions (R178, R179) -/

section
variable {s : State} {m : PixelMem} {a : Nat}

theorem execWrb_of_idle {v : Byte} (hb : s.busy = false) (ha : a < s.memBytes) :
    execWrb m a v s = .next (s.setMem m ((s.mem m).write a v)) :=
  State.hostAccess_of_idle hb ha

theorem execWrp_of_idle {v : Word} (hb : s.busy = false) (ha : a % 4 = 0) (hfit : a + 4 ≤ s.memBytes) :
    execWrp m a v s = .next (s.setMem m ((s.mem m).writeWord a v)) :=
  (aligned_of_multiple ha).trans (State.hostAccess_of_idle hb hfit)

theorem execRdb_of_idle (hb : s.busy = false) (ha : a < s.memBytes) :
    execRdb m a s = ofExcept ((s.readByte m a).map fun v => s.answer (v.setWidth 32)) :=
  State.hostAccess_of_idle hb ha

theorem execRdp_of_idle (hb : s.busy = false) (ha : a % 4 = 0) (hfit : a + 4 ≤ s.memBytes) :
    execRdp m a s = ofExcept ((s.readWord m a).map s.answer) :=
  (aligned_of_multiple ha).trans (State.hostAccess_of_idle hb hfit)

/-- R62: while BUSY = 1 a 32-bit access is refused, by its alignment (R54) or by the run. -/
theorem aligned_hostAccess_of_busy {k : Nat} {r : Result} (hb : s.busy = true) :
    ∃ e, aligned a (s.hostAccess m a k r) = .refused e := by
  rw [State.hostAccess_of_busy hb, aligned]
  split <;> exact ⟨_, rfl⟩

end

/-- R52: a read after a 32-bit write, address by address. -/
theorem Memory.read_writeWord_bytes (c : Memory) (a b : Nat) (v : Word) : (c.writeWord a v).read b =
    if b = a then some (v.extractLsb' 0 8) else if b = a + 1 then some (v.extractLsb' 8 8)
    else if b = a + 2 then some (v.extractLsb' 16 8) else if b = a + 3 then some (v.extractLsb' 24 8)
    else c.read b := by
  rw [Memory.read_writeWord]
  obtain rfl | rfl | rfl | rfl | hout : b = a ∨ b = a + 1 ∨ b = a + 2 ∨ b = a + 3 ∨ ¬ (a ≤ b ∧ b < a + 4) := by omega
  · simp [byteOfWord]
  · simp [byteOfWord]
  · simp [byteOfWord]
  · simp [byteOfWord]
  · rw [if_neg hout, if_neg (by omega), if_neg (by omega), if_neg (by omega), if_neg (by omega)]

theorem toNat_append_byte {w : Nat} (v : BitVec w) (b : Byte) : (v ++ b).toNat = 256 * v.toNat + b.toNat := by
  rw [BitVec.toNat_append, ← Nat.shiftLeft_add_eq_or_of_lt b.isLt, Nat.shiftLeft_eq, Nat.mul_comm]

/-- R52: four bytes at rising addresses, as a number. -/
theorem wordOfBytes_eq (b0 b1 b2 b3 : Byte) : wordOfBytes b0 b1 b2 b3 =
    BitVec.ofNat 32 (b0.toNat + 256 * b1.toNat + 65536 * b2.toNat + 16777216 * b3.toNat) := by
  apply BitVec.eq_of_toNat_eq
  simp only [wordOfBytes, toNat_append_byte, BitVec.toNat_ofNat]
  omega

/-- R179: a 32-bit read of four bytes that have been written. -/
theorem State.readWord_of_read {s : State} {m : PixelMem} {a : Nat} {b0 b1 b2 b3 : Byte} (hfit : a + 4 ≤ s.memBytes)
    (h0 : (s.mem m).read a = some b0) (h1 : (s.mem m).read (a + 1) = some b1) (h2 : (s.mem m).read (a + 2) = some b2)
    (h3 : (s.mem m).read (a + 3) = some b3) : s.readWord m a = .ok (wordOfBytes b0 b1 b2 b3) := by
  have hbyte {j : Nat} {b : Byte} (hj : j < 4) (hr : (s.mem m).read (a + j) = some b) : s.readByte m (a + j) = .ok b :=
    State.readByte_eq_ok.mpr ⟨by omega, hr⟩
  exact State.readWord_eq_ok.mpr ⟨b0, b1, b2, b3, hbyte (j := 0) (by decide) h0, hbyte (by decide) h1,
    hbyte (by decide) h2, hbyte (by decide) h3, rfl⟩

/-! ## How a run goes on, and how it ends (R171, R175, R194) -/

/-- From `s` to `t` the run goes on, at the same size. -/
def State.RunGoesOn (s t : State) : Prop := t.busy = true ∧ t.width = s.width ∧ t.height = s.height

section
variable {s t : State}

theorem State.RunGoesOn.of_hostSide (hb : s.busy = true) (h : t.hostSide = s.hostSide) : s.RunGoesOn t :=
  ⟨(State.busy_eq_of_hostSide h).trans hb, State.width_eq_of_hostSide h, State.height_eq_of_hostSide h⟩

/-- While BUSY = 1 the host's reads and dropped writes let the run go on, and a reset ends it. -/
theorem HostEffect.run_goes_on_or_reset {h : HostInput} (he : HostEffect h s t) (hb : s.busy = true) :
    s.RunGoesOn t ∨ (t.busy = false ∧ h = .reset) := by
  cases he with
  | answered | ignored => exact .inl ⟨hb, rfl, rfl⟩
  | started hd hv hidle | resized hidle w w' | stored hidle hc => simp [hb] at hidle
  | reset hr ht => exact .inr ⟨(execReset_idle ht).1, hr⟩

/-- Of the engine's operations completion alone ends a run, and it sets DONE (R180). -/
theorem EngineEffect.run_goes_on_or_completes (he : EngineEffect s t) (hb : s.busy = true) :
    s.RunGoesOn t ∨ (t.busy = false ∧ s.phase = .complete ∧ t.done = true) := by
  by_cases hp : s.phase = .complete
  · cases he with
    | complete => exact .inr ⟨rfl, hp, rfl⟩
    | zfill hq | window hq | gx hq | gy hq | sqsum hq | root hq | narrow hq | pack hq => cases hp.symm.trans hq
  · exact .inl (.of_hostSide hb (he.hostSide hp))

theorem StepEffect.run_goes_on_or_ends (he : StepEffect s t) (hb : s.busy = true) :
    s.RunGoesOn t ∨ (t.busy = false ∧
      ((s.phase = .complete ∧ t.done = true) ∨ ∃ rest, s.script = .host .reset :: rest)) := by
  cases he with
  | host h rest hs he =>
    obtain hon | ⟨hidle, rfl⟩ := he.run_goes_on_or_reset hb
    · exact .inl hon
    · exact .inr ⟨hidle, .inr ⟨rest, hs⟩⟩
  | wait v l ht =>
    rw [ht]
    exact .inl ⟨hb, rfl, rfl⟩
  | idle rest hidle ht => simp [hb] at hidle
  | engine rest hb he => exact (he.run_goes_on_or_completes hb).imp_right (And.imp_right .inl)
  | apply rest hb ht =>
    have hon : ({ s with script := rest } : State).RunGoesOn t := .of_hostSide hb (execApply_keeps_hostSide _ t ht)
    exact .inl hon

end

/-! ## The obligations of spec/44_host_commands.md -/

/-- Settles O18: the three writes are dropped, and a step that does not end the run keeps its size. -/
theorem registerWritesLostDuringRun : Obligations.RegisterWritesLostDuringRun := by
  refine ⟨fun v s hb => ⟨execWrWidth_of_busy hb, execWrHeight_of_busy hb, execWrCtrl_of_busy hb⟩, fun s t hb ht hb' => ?_⟩
  obtain ⟨-, hsize⟩ | ⟨hidle, -⟩ := (StepEffect.of_step ht).run_goes_on_or_ends hb
  · exact hsize
  · simp [hb'] at hidle

/-- Settles O54: `StepEffect.run_goes_on_or_ends` lets a run end in these two ways. -/
theorem runEndsOnlyByCompletionOrReset : Obligations.RunEndsOnlyByCompletionOrReset := by
  intro s t hb ht hidle
  obtain ⟨hb', -⟩ | ⟨-, hends⟩ := (StepEffect.of_step ht).run_goes_on_or_ends hb
  · simp [hb'] at hidle
  · exact hends

/-- Settles O21: the decoder finds no register at the offset, or rejects the shape of the access. -/
theorem registerAccessOutsideTheMap : Obligations.RegisterAccessOutsideTheMap := by
  intro s t rest hs hreg
  rw [step_of_register_transaction hs hreg]
  refine ⟨fun hw ha hout => ?_, fun hshape => ?_⟩
  · rw [decodeReg_of_unmapped hw ha hout]
    exact ⟨fun hd => by rw [if_pos hd]; rfl, fun hd => by rw [hd]; rfl⟩
  · obtain ⟨r, hr⟩ := decodeReg_of_not_regShape hshape
    exact ⟨_, by rw [hr, perform]⟩

/-- Settles O23: an idle block replaces one memory, in which `read_write` and `read_writeWord_bytes` find the bytes. -/
theorem pixelMemoryWrites : Obligations.PixelMemoryWrites := by
  intro s m a
  refine ⟨fun w => ⟨rfl, decodeMem_write_word⟩, fun v hb ha => ⟨_, execWrb_of_idle hb ha, fun b => ?_, ?_⟩,
    fun v hb ha hfit => ⟨_, execWrp_of_idle hb ha hfit, fun b => ?_, ?_⟩,
    fun v w hb => ⟨⟨_, State.hostAccess_of_busy hb⟩, aligned_hostAccess_of_busy hb⟩⟩
  · rw [State.setMem_mem, Memory.read_write]
  · cases m <;> rfl
  · rw [State.setMem_mem, Memory.read_writeWord_bytes]
  · cases m <;> rfl

/-- Settles O24: a read answers with the bytes it finds, and stops at one that nothing has written (log 5). -/
theorem pixelMemoryReads : Obligations.PixelMemoryReads := by
  intro s m a
  refine ⟨fun w => ⟨rfl, decodeMem_read_word⟩, fun v hb ha hv => ?_, fun b0 b1 b2 b3 hb ha hfit h0 h1 h2 h3 => ?_,
    fun hb ha hu => ?_, fun k hk hb ha hfit hu => ?_,
    fun hb => ⟨⟨_, State.hostAccess_of_busy hb⟩, aligned_hostAccess_of_busy hb⟩⟩
  · have hread : s.readByte m a = .ok v := State.readByte_eq_ok.mpr ⟨ha, hv⟩
    rw [BitVec.ofNat_toNat]
    exact (execRdb_of_idle hb ha).trans (by rw [hread]; rfl)
  · rw [← wordOfBytes_eq]
    exact (execRdp_of_idle hb ha hfit).trans (by rw [State.readWord_of_read hfit h0 h1 h2 h3]; rfl)
  · exact (execRdb_of_idle hb ha).trans (by rw [State.readByte_of_unwritten ha hu]; rfl)
  · obtain ⟨j, -, hfault⟩ := State.readWord_of_unwritten hfit hk hu
    exact ⟨a + j, (execRdp_of_idle hb ha hfit).trans (by rw [hfault]; rfl)⟩

/-- Settles O6: the move is the host's, and the decoder gives it the operation. -/
theorem stepRunsTheHostsInstruction : Obligations.StepRunsTheHostsInstruction := by
  intro s h rest i hs hi
  rw [step_of_script_cons hs, makeMove, perform_of_instr hi]

/-- Settles O9: the engine's turn is `State.completeRun`, which undefines the working state alone. -/
theorem completionSetsDone : Obligations.CompletionSetsDone := by
  intro s rest hmove hb hp
  have hturn : step s = engineTurn { s with script := rest } := step_eq_engineTurn (hmove.imp_right .inl)
  have hdone : engineTurn { s with script := rest } = .next ({ s with script := rest } : State).completeRun :=
    engineTurn_of_no_order hb (congrArg Phase.order hp)
  exact ⟨_, hturn.trans hdone, rfl, rfl, rfl, rfl, rfl, rfl, rfl, rfl, rfl, rfl⟩

/-- Settles O14: the two writes, while idle and while BUSY = 1. -/
theorem sizeRegisterWrites : Obligations.SizeRegisterWrites := fun v _ =>
  ⟨decode_encode (i := .wrWidth v) rfl, decode_encode (i := .wrHeight v) rfl,
    fun hb => ⟨execWrWidth_of_idle hb, execWrHeight_of_idle hb⟩,
    fun hb => ⟨execWrWidth_of_busy hb, execWrHeight_of_busy hb⟩⟩

/-- Settles O15: each read ends in `State.answer` of its register. -/
theorem sizeRegisterReads : Obligations.SizeRegisterReads := fun d _ =>
  ⟨(decode_read_data _ _ _ d).trans (decode_encode (i := .rdWidth) rfl),
    (decode_read_data _ _ _ d).trans (decode_encode (i := .rdHeight) rfl), rfl, rfl⟩

/-- Settles O16: `State.imageBytes` is the integer product that START compares with MEM_BYTES. -/
theorem startCommand : Obligations.StartCommand := fun v _ =>
  ⟨decode_encode (i := .wrCtrl v) rfl, execWrCtrl_of_bit_clear, execWrCtrl_of_busy,
    fun hv hb hrange => (execWrCtrl_of_start hv hb).trans (congrArg _ (State.start_of_range hrange)),
    fun hv hb hfits => (execWrCtrl_of_start hv hb).trans (congrArg _ (State.start_of_fits hfits))⟩

/-- Settles O19: the value returned is STATUS. -/
theorem statusRead : Obligations.StatusRead := fun d s =>
  ⟨(decode_read_data _ _ _ d).trans (decode_encode (i := .rdStatus) rfl), s.statusWord, rfl, s.statusWord_bit0,
    s.statusWord_bit1, s.statusWord_bit2, s.statusWord_lt, State.statusWord_of_legal⟩

/-- Settles O20: neither operation looks at the state. -/
theorem ctrlReadsZeroStatusWriteIgnored : Obligations.CtrlReadsZeroStatusWriteIgnored := fun v _ =>
  ⟨(decode_read_data _ _ _ v).trans (decode_encode (i := .rdCtrl) rfl), decode_encode (i := .wrStatus v) rfl, rfl, rfl⟩

end Sys2Proof.Machine
end

section
/-! PROOF. The range error of an accepted START (spec/60_exceptions.md). -/

namespace Sys2Proof.Machine

/-- R191: raised while BUSY = 0, the range error reads as STATUS = 6. -/
theorem State.raiseRange_statusWord {s : State} (hb : s.busy = false) : s.raiseRange.statusWord = 6 := by
  rw [State.statusWord_eq, State.raiseRange_err, State.raiseRange_done, State.raiseRange_busy, hb]
  rfl

/-- Settles O17: the START that does not fit ends in `State.raiseRange`, which sets DONE and ERR alone. -/
theorem rangeErrorTouchesNothing : Obligations.RangeErrorTouchesNothing := fun _ s hv hb hrange =>
  ⟨s.clearResult.raiseRange, (execWrCtrl_of_start hv hb).trans (congrArg _ (State.start_of_range hrange)),
    State.raiseRange_statusWord hb, hb, rfl⟩

end Sys2Proof.Machine
end

section
/-! PROOF. The end of a run as the host sees it, RESET, and a run over bytes that nothing has written
(spec/70_reset_and_hazards.md R210 to R215, R221). -/

namespace Sys2Proof.Machine

/-! ## RESET (R210, R211) -/

section
variable {s t : State}

/-- R210: the size registers are 0. -/
theorem execReset_size (h : execReset s = .next t) : t.width = 0 ∧ t.height = 0 := by
  cases h
  exact ⟨rfl, rfl⟩

/-- RESET is the block's own: it leaves the host's last read value and its moves still to come (log 27). -/
theorem execReset_keeps_host (h : execReset s = .next t) : t.readData = s.readData ∧ t.script = s.script := by
  cases h
  show (if s.busy then s.abandonImage else s).readData = s.readData ∧
    (if s.busy then s.abandonImage else s).script = s.script
  split <;> exact ⟨rfl, rfl⟩

/-- R210: no run being abandoned, DST keeps its contents. -/
theorem execReset_dst_of_idle (hb : s.busy = false) (h : execReset s = .next t) : t.dst = s.dst := by
  cases h
  show (if s.busy then s.abandonImage else s).dst = s.dst
  rw [hb]
  rfl

/-- R210, R211: what RESET leaves in any state, where `P` is what is known of DST after it. -/
theorem exec_reset_leaves {P : Memory → Prop} (hdst : ∀ t, execReset s = .next t → P t.dst) :
    ∃ t, exec .reset s = .next t ∧ t.width = 0 ∧ t.height = 0 ∧ t.busy = false ∧ t.done = false ∧ t.err = false ∧
      t.src = s.src ∧ P t.dst ∧ t.memPixels = s.memPixels ∧ t.readData = s.readData ∧ t.script = s.script := by
  obtain ⟨t, ht⟩ : ∃ t, execReset s = .next t := ⟨_, rfl⟩
  obtain ⟨hwidth, hheight⟩ := execReset_size ht
  obtain ⟨hbusy, -, hdone, herr⟩ := execReset_idle ht
  exact ⟨t, ht, hwidth, hheight, hbusy, hdone, herr, execReset_src ht, hdst t ht, execReset_keeps_memPixels s t ht,
    execReset_keeps_host ht⟩

end

/-- R90: RESET has no order number. -/
theorem decodeDatapath_ne_reset (order lane : Nat) : decodeDatapath order lane ≠ .instr .reset := by
  unfold decodeDatapath
  split
  · split <;> nofun
  · split
    · nofun
    · split <;> nofun

/-- R210: RESET is an input of the block, not a bus transaction. -/
theorem decode_eq_reset_iff {sel : Selector} : decode sel = .instr .reset ↔ sel = .host .reset := by
  refine ⟨fun h => ?_, fun h => h ▸ rfl⟩
  cases sel with
  | datapath order lane => exact absurd h (decodeDatapath_ne_reset order lane)
  | host input =>
    obtain ⟨rfl, -⟩ | ⟨t, ht⟩ := encode_of_decode_host h
    · rfl
    · cases ht

/-! ## A window over a byte that nothing has written (R214, log 5) -/

/-- An engine access that fails for no other reason than that a byte of SRC has not been written. -/
def ValueOrUnwritten {α : Type} (r : Except Fault α) : Prop :=
  (∃ v, r = .ok v) ∨ ∃ a, r = .error (.unwrittenByte .src a)

section
variable {s t : State}

theorem State.channel_valueOrUnwritten {x y : Int} {k : Nat} (hfits : s.imageBytes ≤ s.memBytes)
    (hin : 0 ≤ x ∧ x < s.width.toNat ∧ 0 ≤ y ∧ y < s.height.toNat) (hk : k < 4) :
    ValueOrUnwritten (s.channel x y k) := by
  have hpixel : pixelAddr s.width.toNat x.toNat y.toNat + 4 ≤ s.imageBytes :=
    pixelAddr_add_four_le (by omega) (by omega)
  cases hread : s.src.read (pixelAddr s.width.toNat x.toNat y.toNat + k) with
  | some v => exact .inl ⟨v, State.channel_of_read hfits hin hk hread⟩
  | none => exact .inr ⟨_, (if_pos hin).trans (State.readByte_of_unwritten (by omega) hread)⟩

/-- R120: the first of the three colour bytes that cannot be read decides the fault. -/
theorem State.neighbourLuma_valueOrUnwritten (hfits : s.imageBytes ≤ s.memBytes)
    (hi : Interior s.width.toNat s.height.toNat s.x.toNat s.y.toNat) (i : Fin 8) :
    ValueOrUnwritten (s.neighbourLuma i) := by
  have hchannel (k : Nat) (hk : k < 4) := State.channel_valueOrUnwritten hfits (neighbour_inside hi i) hk
  obtain ⟨b, hb⟩ | ⟨a, ha⟩ := hchannel 0 (by decide)
  · obtain ⟨g, hg⟩ | ⟨a, ha⟩ := hchannel 1 (by decide)
    · obtain ⟨r, hr⟩ | ⟨a, ha⟩ := hchannel 2 (by decide)
      · exact .inl ⟨_, State.neighbourLuma_eq_ok.mpr ⟨b, g, r, hb, hg, hr, rfl⟩⟩
      · exact .inr ⟨a, by simp only [State.neighbourLuma, hb, hg, ha]⟩
    · exact .inr ⟨a, by simp only [State.neighbourLuma, hb, ha]⟩
  · exact .inr ⟨a, by simp only [State.neighbourLuma, ha]⟩

/-- A sample does not change what the next ones read, so the row ends as its first failing sample does. -/
theorem sampleAll_next_or_unwritten (is : List (Fin 8)) (hluma : ∀ i, ValueOrUnwritten (s.neighbourLuma i)) :
    (∃ n, sampleAll is s = .next { s with n := n }) ∨ ∃ a, sampleAll is s = .fault (.unwrittenByte .src a) := by
  induction is generalizing s with
  | nil => exact .inl ⟨s.n, rfl⟩
  | cons i is ih =>
    obtain ⟨v, hv⟩ | ⟨a, ha⟩ := hluma i
    · have hrow : sampleAll (i :: is) s = sampleAll is { s with n := s.n.set i v } := by
        rw [sampleAll, State.sample_eq_next.mpr ⟨v, hv, rfl⟩, andThen_of_next]
      rw [hrow]
      exact ih fun j => (State.neighbourLuma_with_n s _ j).symm ▸ hluma j
    · exact .inr ⟨a, by rw [sampleAll, State.sample, ha, andThen_of_fault]⟩

/-- R53, R214: at an interior pixel of an image that fits, WINDOW answers or faults at an unwritten byte. -/
theorem State.fillWindow_next_or_unwritten (hfits : s.imageBytes ≤ s.memBytes)
    (hi : Interior s.width.toNat s.height.toNat s.x.toNat s.y.toNat) :
    (∃ t, s.fillWindow = .next t) ∨ ∃ a, s.fillWindow = .fault (.unwrittenByte .src a) := by
  rw [State.fillWindow]
  obtain ⟨n, hn⟩ | ⟨a, ha⟩ := sampleAll_next_or_unwritten [0, 1, 2, 3, 4, 5, 6, 7] fun i =>
    State.neighbourLuma_valueOrUnwritten hfits hi i
  · rw [hn, andThen_of_next, State.sampleAlpha, State.channel_with_n]
    obtain ⟨v, hv⟩ | ⟨a, ha⟩ :=
      State.channel_valueOrUnwritten (x := s.x.toNat) (y := s.y.toNat) hfits (by omega) (by decide : 3 < 4)
    · exact .inl ⟨_, by rw [hv]⟩
    · exact .inr ⟨a, by rw [ha]⟩
  · exact .inr ⟨a, by rw [ha, andThen_of_fault]⟩

theorem State.written_of_channel {x y : Int} {k : Nat} {v : Byte} (h : s.channel x y k = .ok v) :
    (s.src.read (pixelAddr s.width.toNat x.toNat y.toNat + k)).isSome = true := by
  obtain ⟨-, hread⟩ := State.channel_eq_ok.mp h
  obtain ⟨-, hread⟩ := State.readByte_eq_ok.mp hread
  exact Option.isSome_iff_exists.mpr ⟨v, hread⟩

/-- R213: WINDOW answers only where every byte it reads has been written. -/
theorem State.pixelWritten_of_fillWindow (h : s.fillWindow = .next t) : s.PixelWritten s.x.toNat s.y.toNat := by
  obtain ⟨hn, ha, -⟩ := State.fillWindow_eq_next.mp h
  refine ⟨fun i k hk => ?_, State.written_of_channel ha⟩
  obtain ⟨b, g, r, hb, hg, hr, -⟩ := State.neighbourLuma_eq_ok.mp (hn i)
  match k, hk with
  | 0, _ => exact State.written_of_channel hb
  | 1, _ => exact State.written_of_channel hg
  | 2, _ => exact State.written_of_channel hr

end

/-! ## The obligations of spec/70_reset_and_hazards.md -/

/-- Settles O48: the run reaches APPLY of the state that the START leaves, whose image and DST are those of `s`, and
completion after it. -/
theorem runDeliversTheFilteredImage : Obligations.RunDeliversTheFilteredImage := by
  intro s hb hfits hw hs
  obtain ⟨t, ht⟩ := execApply_of_written (s := s.startedRun) hfits hw
  have hside : t.hostSide = s.startedRun.hostSide := execApply_keeps_hostSide s.startedRun t ht
  have hdst : s.startedRun.FilteredInto t.dst := execApply_filteredInto ht
  have hsrc : t.src = s.startedRun.src := State.src_eq_of_hostSide hside
  have hwidth : t.width = s.startedRun.width := State.width_eq_of_hostSide hside
  have hheight : t.height = s.startedRun.height := State.height_eq_of_hostSide hside
  refine ⟨t.completeRun, ?_, State.completeRun_statusWord (State.err_eq_of_hostSide hside), hdst, hsrc, hwidth, hheight⟩
  rw [runSteps_of_start hb hfits hs, ht, andThen_of_next]

/-- Settles O30: WINDOW answers or faults at an unwritten byte, and where it answers its bytes have been written. -/
theorem windowOfUnwrittenByteFaults : Obligations.WindowOfUnwrittenByteFaults := by
  intro s hfits hi hunwritten
  obtain ⟨t, ht⟩ | hfault := State.fillWindow_next_or_unwritten hfits hi
  · exact absurd (State.pixelWritten_of_fillWindow ht) hunwritten
  · exact hfault

/-- Settles O13: whether or not a run is abandoned, RESET writes DST below W*H*4 alone. -/
theorem resetDuringRunAbandonsIt : Obligations.ResetDuringRunAbandonsIt := fun s _ =>
  exec_reset_leaves (P := fun d => ∀ a, s.imageBytes ≤ a → d.read a = s.dst.read a) fun _ ht =>
    ((execReset_writes ht).mono (min_le_left _ _)).read

/-- Settles O12: with no run to abandon DST stays, and `decode_eq_reset_iff` is the second part. -/
theorem resetWhileIdle : Obligations.ResetWhileIdle :=
  ⟨fun s hb => exec_reset_leaves (P := fun d => d = s.dst) fun _ ht => execReset_dst_of_idle hb ht,
    fun _ => decode_eq_reset_iff⟩

end Sys2Proof.Machine
end
